-- ==== Sys2Proof/Word.lean ====
section
/-! DEFINITION. The words of the machine: bytes, 32-bit and 64-bit words (R8, R10). -/

namespace Sys2Proof

/-- A byte of memory. -/
abbrev Byte := BitVec 8

/-- A register of a thread context, an address, an entry of a stream's stack: 64 bits. -/
abbrev Word := BitVec 64

/-- The number of one of the registers w0 to w15 (R20). -/
abbrev Reg := BitVec 4

end Sys2Proof
end

