-- ==== Sys2Proof/Config.lean ====
section
/-! DEFINITION. What is fixed for the machine: the number of devices (R7), and the free values, which nothing in Lean can
evaluate. -/

namespace Sys2Proof

/-- Devices of a domain (R7). -/
def Config.devices : Nat := 192

/-- The free choices that the spec leaves open: a latency within its bound, a victim, a place. The machine applies it
to the counter `fresh` of State and reads the answer within the bound the spec gives. [log 4] -/
opaque Config.choice : Nat → Nat

/-- The sum vector S of a barchan slot after an accumulate, which R219 does not fix. [log 6] -/
opaque Config.sumVector : Nat → BitVec 96

/-- SHAKE256 with 32 bytes of output (R355, R359), by reference to its standard. [log 7] -/
opaque Config.shake256 : List Byte → List Byte

/-- Verification of an XMSS-SHAKE256_20_256 signature: public key, message, signature (R355). [log 7] -/
opaque Config.xmssVerify : List Byte → List Byte → List Byte → Bool

/-- The XMSS signature of a message by the attestation key of a device with a leaf (R358, R359). [log 7] -/
opaque Config.xmssSign : Nat → Nat → List Byte → List Byte

/-- AES key unwrap (RFC 3394) under the device's own key; none when the integrity check fails (R299). [log 7] -/
opaque Config.aesUnwrap : Nat → List Byte → Option (List Byte)

/-- The hash of the configuration table's public key fused in the island of a device (R355). [log 7] -/
opaque Config.fusedHash : Nat → List Byte

/-- The identity of a device that an attestation report holds, and the measurement of its boot ROM stage (R359). [log 7] -/
opaque Config.identity : Nat → List Byte

/-- Whether a dirty line of a slice has been replaced, and so written back, since it was last written: by wall cycle and line
(R363). [log 12] -/
opaque Config.replaced : Nat → Nat → Bool

/-- Which of its dirty lines a slice that holds no more of them replaces: by wall cycle and home (R363). [log 12] -/
opaque Config.victim : Nat → Nat → Nat

end Sys2Proof
end

