-- ==== Sys2Proof/Machine/Memory.lean ====
section
/-! DEFINITION. Memory as a list of (address, byte) pairs in one canonical form, little-endian access to it (R10), and
sparse tables of records. -/

namespace Sys2Proof.Machine

/-- A memory: addresses strictly rising, and no entry equal to zero, which is what an unlisted address reads as. -/
abbrev Memory := List Host.Cell

/-- A sparse table of records by number. -/
abbrev Table (α : Type) := List (Nat × α)

/-- What an address that no write has reached reads as. [log 2] -/
def Memory.default : Byte := 0

/-- Every address of the list lies above `a`, the addresses rise, and no byte is the default. -/
def Memory.wfFrom : Nat → Memory → Bool
  | _, [] => true
  | lo, (a, b) :: m => decide (lo ≤ a) && decide (b ≠ Memory.default) && Memory.wfFrom (a + 1) m

/-- The canonical form. -/
def Memory.wf (m : Memory) : Bool := Memory.wfFrom 0 m

/-- The byte at an address. -/
def Memory.get : Memory → Nat → Byte
  | [], _ => Memory.default
  | (a, b) :: m, x => if x = a then b else Memory.get m x

/-- Writes one byte, keeping the canonical form. -/
def Memory.set : Memory → Nat → Byte → Memory
  | [], x, v => if v = Memory.default then [] else [(x, v)]
  | (a, b) :: m, x, v =>
    if x < a then (if v = Memory.default then (a, b) :: m else (x, v) :: (a, b) :: m)
    else if x = a then (if v = Memory.default then m else (a, v) :: m)
    else (a, b) :: Memory.set m x v

/-- Writes bytes at consecutive addresses. -/
def Memory.setBytes (m : Memory) (x : Nat) : List Byte → Memory
  | [] => m
  | v :: vs => Memory.setBytes (m.set x v) (x + 1) vs

/-- Reads `n` bytes at consecutive addresses. -/
def Memory.getBytes (m : Memory) (x : Nat) : Nat → List Byte
  | 0 => []
  | n + 1 => m.get x :: m.getBytes (x + 1) n

/-- Drops the contents of [x, x + n): every byte of it reads the default again. -/
def Memory.clear (m : Memory) (x n : Nat) : Memory :=
  m.filter fun c => !(decide (x ≤ c.1) && decide (c.1 < x + n))

/-- The number that little-endian bytes hold (R10). -/
def leNat : List Byte → Nat
  | [] => 0
  | b :: bs => b.toNat + 256 * leNat bs

/-- The `n` little-endian bytes of a number (R10). -/
def leBytes : Nat → Nat → List Byte
  | 0, _ => []
  | n + 1, v => BitVec.ofNat 8 v :: leBytes n (v / 256)

/-- Reads an n-byte little-endian number. -/
def Memory.num (m : Memory) (x n : Nat) : Nat := leNat (m.getBytes x n)

/-- Writes an n-byte little-endian number. -/
def Memory.setNum (m : Memory) (x n v : Nat) : Memory := m.setBytes x (leBytes n v)

/-- The record of a number, if the table lists one. -/
def Table.get? {α : Type} : Table α → Nat → Option α
  | [], _ => none
  | (k, v) :: t, x => if x = k then some v else Table.get? t x

/-- Lists a record under a number, the numbers rising. -/
def Table.put {α : Type} : Table α → Nat → α → Table α
  | [], x, v => [(x, v)]
  | (k, w) :: t, x, v =>
    if x < k then (x, v) :: (k, w) :: t
    else if x = k then (x, v) :: t
    else (k, w) :: Table.put t x v

/-- Drops the record of a number. -/
def Table.drop {α : Type} (t : Table α) (x : Nat) : Table α := t.filter fun e => !(e.1 == x)

end Sys2Proof.Machine
end

