-- ==== Sys2Proof/Payload.lean ====
section
/-! DEFINITION. The names of the machine's parts (R7) and what an event in flight carries with it: a caravan, a
message, a remote update, a post, a JOB request, a packet of the fabric. Instr's event rows hold these as plain data. -/

namespace Sys2Proof

/-- A core of the domain (R7, R281): a thread core (x, y) of a device, an edge core of a device, or the switch core
beside bank b of switch k. -/
inductive CoreRef where
  | thread (dev x y : Nat)
  | edge (dev e : Nat)
  | switch (k b : Nat)
  deriving DecidableEq, Repr

/-- Context n (0 to 15) of a core. -/
structure CtxRef where
  core : CoreRef
  n : Nat
  deriving DecidableEq, Repr

/-- Tensor pipe p (0 to 191) of a device. -/
structure PipeRef where
  dev : Nat
  p : Nat
  deriving DecidableEq, Repr

/-- Timed partition k (0 to 7) of a device. -/
structure PartRef where
  dev : Nat
  k : Nat
  deriving DecidableEq, Repr

/-- The five engine streams of a pipe, in the order of R199 and R330. -/
inductive Engine where
  | seq | lde | mxe | vxe | cpe
  deriving DecidableEq, Repr

/-- One engine stream. -/
structure StreamRef where
  pipe : PipeRef
  eng : Engine
  deriving DecidableEq, Repr

/-- The three typed buffers of a pipe. -/
inductive Buf where
  | w | a | c
  deriving DecidableEq, Repr

/-- One bank of a buffer: W has 12, A 32, C 16 (R150, R335). -/
structure BankRef where
  pipe : PipeRef
  buf : Buf
  n : Nat
  deriving DecidableEq, Repr

/-- The shared units of a core (R38, R226). -/
inductive SharedUnit where
  | divider | normaliser
  deriving DecidableEq, Repr

/-- The three asynchronous engines of a core (R101). -/
inductive CoreEngine where
  | copy | gather | coll
  deriving DecidableEq, Repr

/-- What a trap delivers beside the saved PC (R108, R326): the cause code, DETAIL and the fault address. -/
structure TrapInfo where
  cause : Nat
  detail : Nat
  addr : Word
  deriving DecidableEq, Repr

/-- The state of one thread that a caravan carries (R92, Table 5 of R243). -/
structure Traveller where
  pc : Word
  regs : List Word
  pred : Byte
  priv : Bool
  space : BitVec 16
  home : CtxRef
  deriving DecidableEq, Repr

/-- Why a caravan goes home (R92, R93, R338). -/
inductive Homeward where
  | goOn
  | trap (t : TrapInfo)
  /-- To be pre-empted; of each thread, whether a waiting instruction was withdrawn (R338, R339). -/
  | preempt (waits : List Bool)
  deriving DecidableEq, Repr

/-- A switch to, from or through which a caravan is in transit (R94, R284, R286, R287): whether it resides on the pair there,
and the incarnation, of the switch or of the pair, at its departure. -/
structure Via where
  switch : Nat
  pair : Bool
  inc : Nat
  deriving DecidableEq, Repr

/-- Where a caravan that resided on a pair set out (R284): the switch core, the incarnation of its switch then, and the states of
its threads that the partner holds. -/
structure Origin where
  core : CoreRef
  inc : Nat
  held : List Traveller
  deriving DecidableEq, Repr

/-- A caravan: its thread, the followers that travel with it as one unit (R69, R243), the switches whose loss would
lose it (R94, R286), what happens at home when it is on its way home, and the residence on a pair that it left, until another
device or switch accepts it (R284, R287). -/
structure Caravan where
  lead : Traveller
  followers : List Traveller
  via : List Via
  mirrored : Bool
  why : Homeward
  origin : Option Origin := none
  deriving DecidableEq, Repr

/-- A message of SEND or MCAST (R95 to R98): its number and its sender's thread job. For MCAST, `rest` lists the cores of the
promenade still to visit and `refused` says whether a core already refused. -/
structure Message where
  id : Nat
  tjob : Option Nat
  src : CtxRef
  space : BitVec 16
  dest : CoreRef
  cls : Nat
  words : List Word
  remote : Bool
  mcast : Bool
  rest : List CoreRef
  refused : Bool
  deriving DecidableEq, Repr

/-- A remote-update thread of SPAWNU (R89): its number in issue order, the home context of its issuer, and the core it was
issued on. -/
structure RemoteUpdate where
  id : Nat
  src : CtxRef
  core : CoreRef
  kind : Nat
  va : Word
  value : Word
  space : BitVec 16
  priv : Bool
  deriving DecidableEq, Repr

/-- A POST on its way to a slot (R103, R176). -/
structure PostReq where
  src : CtxRef
  space : BitVec 16
  pipe : PipeRef
  record : Nat
  slot : Nat
  value : Word
  /-- The PCC of the cycle in which it reached the slot, once it has (R177). -/
  reached : Option Nat
  deriving DecidableEq, Repr

/-- What the slot answers (R103). -/
inductive PostVerdict where
  | ack | refused | bound | repeated | closed
  deriving DecidableEq, Repr

/-- A thread load or store of a mapped buffer range on its way to the pipe (R76, R270). `store = none` is a load. -/
structure OasisReq where
  src : CtxRef
  space : BitVec 16
  pipe : PipeRef
  buf : Buf
  off : Nat
  size : Nat
  store : Option Word
  /-- The job whose window took a load that waits at the pipe (R76). -/
  job : Option Nat
  deriving DecidableEq, Repr

/-- A JOB request at the partition front (R34, R104). -/
structure JobReq where
  src : CtxRef
  part : PartRef
  rel : Bool
  image : Word
  mask : Nat
  stamp : Word
  deriving DecidableEq, Repr

/-- What a packet of packet class carries (Table 3 of R295). -/
inductive FabricContent where
  | read (t : CtxRef)
  | write (t : CtxRef)
  | reply (t : CtxRef)
  | message (m : Message)
  | caravan (dest : CoreRef) (c : Caravan)
  | update (u : RemoteUpdate)
  | ack (seq : Nat)
  deriving DecidableEq, Repr

/-- A packet of packet class: the two header words, whether its tag (when ENC = 1) verifies, its content, and whether its source
sends it again (R298). -/
structure FabricPacket where
  w0 : Word
  w1 : Word
  tagOk : Bool
  content : FabricContent
  resent : Bool := false
  deriving DecidableEq, Repr

/-- What the control flit of a frame brings (R291, R293, R294, R299). -/
inductive ControlNotice where
  | hold (part : PartRef) (d : Nat)
  | release (part : PartRef) (d r : Nat)
  | align (members : List PartRef) (w0 p0 : Nat)
  | tag (slot : Nat) (ok : Bool)
  | credits (n : Nat)
  deriving DecidableEq, Repr

/-- An inbound Ultra Ethernet packet (R301 to R303): a part of a send, with its number, its whole length and the part's offset;
a part of an RMA write. `rod` is the number of its request in posting order, and whether the request ends with the packet,
under ROD. -/
inductive UePacket where
  | send (peer number total off : Nat) (rod : Option (Nat × Bool)) (bytes : List Byte)
  | rmaWrite (peer : Nat) (addr : Word) (rkey : Nat) (rod : Option (Nat × Bool)) (bytes : List Byte)
  | done (wr : Nat) (count : Nat)
  | refusal (wr : Nat)
  | unsupported
  deriving DecidableEq, Repr

/-- An access of the host that its bridge performs in the order of the link (R305, R306, R350): of BAR2, a read with its length and
tag, or a write; a wake write; a QCTL write; a read or a write of a word of BAR0. -/
inductive HostReq where
  | read (off len tag : Nat)
  | write (off : Nat) (bs : List Byte)
  | wake (d q : Nat)
  | qctl (d q command : Nat)
  | word (off tag : Nat)
  | store (off : Nat) (v : Word)
  deriving DecidableEq, Repr

/-- The operand of an event: what an event in flight, or an input, carries. The step latches it (State.ev) before it
runs the event, as a word's operands stand in registers. -/
inductive Operand where
  | none
  /-- A timed job; a job and a record, or a milestone value. -/
  | job (j : Nat)
  | jobRecord (j k : Nat)
  | jobWord (j : Nat) (v : Word)
  | request (r : JobReq)
  | post (r : PostReq)
  | verdict (t : CtxRef) (v : PostVerdict)
  | access (r : OasisReq)
  | part (k : PartRef)
  | form (k : PartRef) (clusters : List Nat)
  | align (members : List PartRef) (p0 : Nat)
  | group (g : Nat) (lost : List PartRef)
  | stream (x : StreamRef)
  | pipe (p : PipeRef)
  /-- An operation of a pipe, and its row, step or unit. -/
  | op (p : PipeRef) (id u : Nat)
  | bank (b : BankRef)
  | dev (d : Nat)
  | devNum (d n : Nat)
  | devBytes (d : Nat) (bs : List Byte)
  | queue (d q : Nat)
  | tjob (tj : Nat)
  | place (tj : Nat) (core : CoreRef)
  | node (g n : Nat)
  /-- A packet of a queue, by its sequence number. -/
  | pkt (dev q seq : Nat)
  | core (c : CoreRef)
  | thief (thief victim : CoreRef)
  | arrive (dest : CoreRef) (c : Caravan)
  | caravan (c : Caravan)
  | message (m : Message)
  | msgClass (c : CoreRef) (cls : Nat)
  /-- A context, with a free choice, or with a message's number and a flag. -/
  | ctx (t : CtxRef) (pick : Nat)
  | answer (t : CtxRef) (id : Nat) (b : Bool)
  | ctxCore (t : CtxRef) (c : CoreRef)
  | update (u : RemoteUpdate)
  | walk (dev space va pick : Nat)
  | unit (c : CoreRef) (u : SharedUnit)
  | engine (c : CoreRef) (e : CoreEngine)
  | command (c : CoreRef) (id : Nat)
  | key (n : Nat)
  | hostRead (bridge off len tag : Nat)
  | hostWrite (bridge off : Nat) (bs : List Byte)
  /-- A host read and a host write of a word of BAR0, a host write of QCTL q with its command, and an AtomicOps request (R304, R305, R350). -/
  | hostWord (bridge off tag : Nat)
  | hostStore (bridge off : Nat) (v : Word)
  | qctl (d q command : Nat)
  | hostAtomic (bridge tag : Nat)
  | switch (k : Nat)
  | switchDevs (k : Nat) (devs : List Nat)
  | port (d k : Nat)
  | packet (d k : Nat) (pkt : FabricPacket)
  | control (d k : Nat) (c : ControlNotice)
  | keyLoad (d slot : Nat) (wrapped : List Byte) (ports spaces : List Nat)
  | keySlot (d slot : Nat)
  | nonce (d k slot : Nat)
  | ueWork (d uq n : Nat)
  | uePacket (d uq : Nat) (pkt : UePacket)
  | quota (k space granules : Nat)
  /-- The path table's four alternatives to a device (R296), and a mask of reserved slots of a port, outbound or inbound, for a
  partition (R291). -/
  | paths (d e : Nat) (alts : List (Option Nat))
  | slotMask (d k : Nat) (out : Bool) (part : Nat) (mask : Nat)
  /-- A queue of the Ultra Ethernet service as the firmware sets it up (R302). -/
  | ueSetup (d uq : Nat) (ring : Word) (logn space : Nat) (peers : List Nat) (regions : List (Nat × Word × Nat))
  deriving DecidableEq, Repr

end Sys2Proof
end

