-- ==== Sys2Proof/Syntax.lean ====
section
/-! DEFINITION. The instruction set: one constructor per row of spec/opcode_table.json. Rows with an encoding hold the
fields of their word (R22 to R31); the rows without one are the machine's
events, whose operand stands in the state (State.ev). Constructors without fields come after those with fields. -/

namespace Sys2Proof

/-- The guard of a thread instruction (Table 4 of R22): the sense gs and the predicate gp. -/
structure Guard where
  gs : BitVec 1
  gp : BitVec 3
  deriving DecidableEq, Repr

/-- The instructions, stream words and events of the Gutur G4. -/
inductive Instr where
  /-- R40. Writes rd := ra + rb modulo 2^64. -/
  | add (g : Guard) (d a b : Reg)
  /-- R40. Writes rd := ra − rb modulo 2^64. -/
  | sub (g : Guard) (d a b : Reg)
  /-- R40. Writes the low 64 bits of ra × rb. -/
  | mul (g : Guard) (d a b : Reg)
  /-- R40. Writes the high 64 bits of the signed 128-bit product. -/
  | mulhI64 (g : Guard) (d a b : Reg)
  /-- R40. Writes the high 64 bits of the unsigned 128-bit product. -/
  | mulhN64 (g : Guard) (d a b : Reg)
  /-- R41. Signed division truncated toward zero on the shared divider, with the fixed results for zero and overflow. -/
  | divI64 (g : Guard) (d a b : Reg)
  /-- R41. Unsigned division on the shared divider, with the fixed result for a zero divisor. -/
  | divN64 (g : Guard) (d a b : Reg)
  /-- R41. Signed remainder with the sign of ra on the shared divider. -/
  | remI64 (g : Guard) (d a b : Reg)
  /-- R41. Unsigned remainder on the shared divider. -/
  | remN64 (g : Guard) (d a b : Reg)
  /-- R40. Signed addition saturated to the 64-bit range. -/
  | addsatI64 (g : Guard) (d a b : Reg)
  /-- R40. Signed subtraction saturated to the 64-bit range. -/
  | subsatI64 (g : Guard) (d a b : Reg)
  /-- R40. Writes the absolute value of ra, with ABS of −2^63 giving −2^63. -/
  | abs (g : Guard) (d a : Reg)
  /-- R40. Writes 0 − ra. -/
  | neg (g : Guard) (d a : Reg)
  /-- R42. Bitwise AND of ra and rb. -/
  | and (g : Guard) (d a b : Reg)
  /-- R42. Bitwise OR of ra and rb. -/
  | or (g : Guard) (d a b : Reg)
  /-- R42. Bitwise XOR of ra and rb. -/
  | xor (g : Guard) (d a b : Reg)
  /-- R42. Writes ra AND NOT rb. -/
  | andn (g : Guard) (d a b : Reg)
  /-- R42. Writes ra OR NOT rb. -/
  | orn (g : Guard) (d a b : Reg)
  /-- R42. Writes NOT(ra XOR rb). -/
  | xnor (g : Guard) (d a b : Reg)
  /-- R42. Shifts ra left by rb[5:0], shifting in zeros. -/
  | shl (g : Guard) (d a b : Reg)
  /-- R42. Shifts ra right logically by rb[5:0]. -/
  | shr (g : Guard) (d a b : Reg)
  /-- R42. Shifts ra right arithmetically by rb[5:0]. -/
  | sar (g : Guard) (d a b : Reg)
  /-- R42. Rotates ra left by rb[5:0]. -/
  | rol (g : Guard) (d a b : Reg)
  /-- R42. Rotates ra right by rb[5:0]. -/
  | ror (g : Guard) (d a b : Reg)
  /-- R42. Counts the leading zero bits of ra, 64 for zero. -/
  | clz (g : Guard) (d a : Reg)
  /-- R42. Counts the trailing zero bits of ra, 64 for zero. -/
  | ctz (g : Guard) (d a : Reg)
  /-- R42. Counts the one bits of ra. -/
  | popc (g : Guard) (d a : Reg)
  /-- R42. Reverses the bit order of ra. -/
  | brev (g : Guard) (d a : Reg)
  /-- R42. Reverses the byte order of ra. -/
  | bswap (g : Guard) (d a : Reg)
  /-- R43. Signed minimum of ra and rb. -/
  | minI64 (g : Guard) (d a b : Reg)
  /-- R43. Signed maximum of ra and rb. -/
  | maxI64 (g : Guard) (d a b : Reg)
  /-- R43. Unsigned minimum of ra and rb. -/
  | minN64 (g : Guard) (d a b : Reg)
  /-- R43. Unsigned maximum of ra and rb. -/
  | maxN64 (g : Guard) (d a b : Reg)
  /-- R43. Sign-extends bit 7 of ra. -/
  | sextI8 (g : Guard) (d a : Reg)
  /-- R43. Sign-extends bit 15 of ra. -/
  | sextI16 (g : Guard) (d a : Reg)
  /-- R43. Sign-extends bit 31 of ra. -/
  | sextI32 (g : Guard) (d a : Reg)
  /-- R43. Clears bits [63:8] of ra. -/
  | zextN8 (g : Guard) (d a : Reg)
  /-- R43. Clears bits [63:16] of ra. -/
  | zextN16 (g : Guard) (d a : Reg)
  /-- R43. Clears bits [63:32] of ra. -/
  | zextN32 (g : Guard) (d a : Reg)
  /-- R43. Copies ra to rd. -/
  | mov (g : Guard) (d a : Reg)
  /-- R43. Writes rd := pk ? ra : rb, reading pk at issue. -/
  | sel (g : Guard) (d a b : Reg) (k : BitVec 3)
  /-- R44. Writes rd := ra + (rb << log2 s). -/
  | lea (g : Guard) (d a b : Reg) (k : BitVec 2)
  /-- R45. Adds the sign-extended 14-bit immediate to ra. -/
  | addi (g : Guard) (d a : Reg) (i : BitVec 14)
  /-- R45. ANDs ra with the zero-extended 14-bit immediate. -/
  | andi (g : Guard) (d a : Reg) (i : BitVec 14)
  /-- R45. ORs ra with the zero-extended 14-bit immediate. -/
  | ori (g : Guard) (d a : Reg) (i : BitVec 14)
  /-- R45. XORs ra with the zero-extended 14-bit immediate. -/
  | xori (g : Guard) (d a : Reg) (i : BitVec 14)
  /-- R45. Writes the sign-extended 14-bit immediate to rd. -/
  | movi (g : Guard) (d : Reg) (i : BitVec 14)
  /-- R45. Writes the zero-extended immediate to rd[63:32] and keeps rd[31:0]. -/
  | inshi (g : Guard) (d : Reg) (i : BitVec 14)
  /-- R45. Multiplies ra by the sign-extended 14-bit immediate, keeping the low 64 bits. -/
  | muli (g : Guard) (d a : Reg) (i : BitVec 14)
  /-- R26. Prefix pair: ADDI with a 32-bit sign-extended immediate, issued in one turn. -/
  | addiLong (g : Guard) (d a : Reg) (i : BitVec 32)
  /-- R26. Prefix pair: ANDI with a 32-bit zero-extended immediate. -/
  | andiLong (g : Guard) (d a : Reg) (i : BitVec 32)
  /-- R26. Prefix pair: ORI with a 32-bit zero-extended immediate. -/
  | oriLong (g : Guard) (d a : Reg) (i : BitVec 32)
  /-- R26. Prefix pair: XORI with a 32-bit zero-extended immediate. -/
  | xoriLong (g : Guard) (d a : Reg) (i : BitVec 32)
  /-- R26. Prefix pair: MOVI with a 32-bit sign-extended immediate. -/
  | moviLong (g : Guard) (d : Reg) (i : BitVec 32)
  /-- R26. Prefix pair: INSHI with a 32-bit immediate into rd[63:32]. -/
  | inshiLong (g : Guard) (d : Reg) (i : BitVec 32)
  /-- R26. Prefix pair: MULI with a 32-bit sign-extended immediate. -/
  | muliLong (g : Guard) (d a : Reg) (i : BitVec 32)
  /-- R46. Shifts ra left by an immediate amount. -/
  | shli (g : Guard) (d a : Reg) (n : BitVec 6)
  /-- R46. Shifts ra right logically by an immediate amount. -/
  | shri (g : Guard) (d a : Reg) (n : BitVec 6)
  /-- R46. Shifts ra right arithmetically by an immediate amount. -/
  | sari (g : Guard) (d a : Reg) (n : BitVec 6)
  /-- R46. Rotates ra right by an immediate amount. -/
  | rori (g : Guard) (d a : Reg) (n : BitVec 6)
  /-- R47. Compares two registers at 64 or 32 bits under a condition and writes a predicate. -/
  | cmp (g : Guard) (e : BitVec 3) (a b : Reg) (w : BitVec 1) (c : BitVec 4)
  /-- R47. Compares a register with a sign-extended 10-bit immediate and writes a predicate. -/
  | cmpi (g : Guard) (e : BitVec 3) (a : Reg) (c : BitVec 4) (i : BitVec 10)
  /-- R48. Writes pd := pa AND pb. -/
  | pand (g : Guard) (e f h : BitVec 3)
  /-- R48. Writes pd := pa OR pb. -/
  | por (g : Guard) (e f h : BitVec 3)
  /-- R48. Writes pd := pa XOR pb. -/
  | pxor (g : Guard) (e f h : BitVec 3)
  /-- R48. Writes pd := pa AND NOT pb. -/
  | pandn (g : Guard) (e f h : BitVec 3)
  /-- R48. Writes pd := NOT pa. -/
  | pnot (g : Guard) (e f : BitVec 3)
  /-- R48. Writes the predicate word, zero-extended, to rd. -/
  | rdp (g : Guard) (d : Reg)
  /-- R48. Writes p1 to p7 from ra[7:1]. -/
  | wrp (g : Guard) (a : Reg)
  /-- R49. Compares two f64 or f32 values without signalling and writes a predicate. -/
  | fcmp (g : Guard) (e : BitVec 3) (a b : Reg) (t : BitVec 1) (c : BitVec 3)
  /-- R52. Binary64 addition with the selected rounding. -/
  | faddF64 (g : Guard) (d a b : Reg) (r : BitVec 2)
  /-- R52. Binary64 subtraction. -/
  | fsubF64 (g : Guard) (d a b : Reg) (r : BitVec 2)
  /-- R52. Binary64 multiplication. -/
  | fmulF64 (g : Guard) (d a b : Reg) (r : BitVec 2)
  /-- R52. Binary64 division on the shared divider. -/
  | fdivF64 (g : Guard) (d a b : Reg) (r : BitVec 2)
  /-- R52. Binary64 square root on the shared divider. -/
  | fsqrtF64 (g : Guard) (d a : Reg) (r : BitVec 2)
  /-- R52. Binary64 fused multiply-add rd + ra × rb, rounded once. -/
  | fmaF64 (g : Guard) (d a b : Reg) (r : BitVec 2)
  /-- R52. Binary64 minimumNumber. -/
  | fminF64 (g : Guard) (d a b : Reg)
  /-- R52. Binary64 maximumNumber. -/
  | fmaxF64 (g : Guard) (d a b : Reg)
  /-- R52. Clears the sign bit of a binary64 value. -/
  | fabsF64 (g : Guard) (d a : Reg)
  /-- R52. Inverts the sign bit of a binary64 value. -/
  | fnegF64 (g : Guard) (d a : Reg)
  /-- R52. Binary32 addition on bits [31:0], upper half written zero. -/
  | faddF32 (g : Guard) (d a b : Reg) (r : BitVec 2)
  /-- R52. Binary32 subtraction. -/
  | fsubF32 (g : Guard) (d a b : Reg) (r : BitVec 2)
  /-- R52. Binary32 multiplication. -/
  | fmulF32 (g : Guard) (d a b : Reg) (r : BitVec 2)
  /-- R52. Binary32 division on the shared divider. -/
  | fdivF32 (g : Guard) (d a b : Reg) (r : BitVec 2)
  /-- R52. Binary32 square root on the shared divider. -/
  | fsqrtF32 (g : Guard) (d a : Reg) (r : BitVec 2)
  /-- R52. Binary32 fused multiply-add, rounded once. -/
  | fmaF32 (g : Guard) (d a b : Reg) (r : BitVec 2)
  /-- R52. Binary32 minimumNumber. -/
  | fminF32 (g : Guard) (d a b : Reg)
  /-- R52. Binary32 maximumNumber. -/
  | fmaxF32 (g : Guard) (d a b : Reg)
  /-- R52. Clears the sign bit of a binary32 value. -/
  | fabsF32 (g : Guard) (d a : Reg)
  /-- R52. Inverts the sign bit of a binary32 value. -/
  | fnegF32 (g : Guard) (d a : Reg)
  /-- R53. Converts between integer, f32, f64 and bf16 types with the chosen rounding and saturation. -/
  | cvt (g : Guard) (d a : Reg) (r : BitVec 2) (s t : BitVec 4)
  /-- R58. Eight-lane element-wise add from pool to pool, advancing the pointers. -/
  | lnadd (g : Guard) (d a b : Reg) (t : BitVec 4)
  /-- R58. Eight-lane element-wise subtract. -/
  | lnsub (g : Guard) (d a b : Reg) (t : BitVec 4)
  /-- R58. Eight-lane element-wise multiply. -/
  | lnmul (g : Guard) (d a b : Reg) (t : BitVec 4)
  /-- R58. Eight-lane element-wise minimum. -/
  | lnmin (g : Guard) (d a b : Reg) (t : BitVec 4)
  /-- R58. Eight-lane element-wise maximum. -/
  | lnmax (g : Guard) (d a b : Reg) (t : BitVec 4)
  /-- R58. Eight-lane element-wise AND of integer types. -/
  | lnand (g : Guard) (d a b : Reg) (t : BitVec 4)
  /-- R58. Eight-lane element-wise OR of integer types. -/
  | lnor (g : Guard) (d a b : Reg) (t : BitVec 4)
  /-- R58. Eight-lane element-wise XOR of integer types. -/
  | lnxor (g : Guard) (d a b : Reg) (t : BitVec 4)
  /-- R58. Eight-lane fused multiply-add into the destination run. -/
  | lnfma (g : Guard) (d a b : Reg) (t : BitVec 4)
  /-- R58. Eight-lane copy of a run. -/
  | lncpy (g : Guard) (d a : Reg) (t : BitVec 4)
  /-- R59. Sums eight elements in fixed bracketing into one destination element. -/
  | lnsum (g : Guard) (d a : Reg) (t : BitVec 4)
  /-- R59. Dot product of two eight-element runs in fixed bracketing. -/
  | lndot (g : Guard) (d a b : Reg) (t : BitVec 4)
  /-- R63. PC-relative branch with a hint, costing turns by hint and outcome. -/
  | br (g : Guard) (h : BitVec 2) (d : BitVec 20)
  /-- R64. Writes the return address into w15 and branches PC-relative. -/
  | call (g : Guard) (d : BitVec 20)
  /-- R64. Jumps to w15. -/
  | ret (g : Guard)
  /-- R64. Jumps to the address in ra. -/
  | jmpi (g : Guard) (a : Reg)
  /-- R64. Reads ra, writes the return address into w15 and jumps. -/
  | calli (g : Guard) (a : Reg)
  /-- R68. Makes the issuer a follower of the named context of the core. -/
  | follow (g : Guard) (a : Reg)
  /-- R68. Leaves or dissolves the follow group, keeping a rejoin record for a follower. -/
  | detach (g : Guard)
  /-- R68. Rejoins the recorded leader, migrating as a caravan when it is on another core. -/
  | rejoin (g : Guard)
  /-- R66. Leaves the rotation until partition k's PCC reaches ra. -/
  | waitcPcc (g : Guard) (a : Reg) (k : BitVec 3)
  /-- R66. Leaves the rotation until the WCC reaches ra. -/
  | waitcWcc (g : Guard) (a : Reg)
  /-- R67. Reads partition k's PCC into rd. -/
  | rdcycPcc (g : Guard) (d : Reg) (k : BitVec 3)
  /-- R67. Reads the WCC into rd. -/
  | rdcycWcc (g : Guard) (d : Reg)
  /-- R70. Drains the queues, leaves its group, unbinds classes and frees the context. -/
  | halt (g : Guard)
  /-- R71. Halts and stores ra as the core's retain tag. -/
  | haltRetain (g : Guard) (a : Reg)
  /-- R72. Puts the context behind every other ready context of the core. -/
  | yield (g : Guard)
  /-- R75. Loads 8 to 64 bits, sign- or zero-extended, with offset or post-increment addressing. -/
  | ld (g : Guard) (d a : Reg) (z : BitVec 2) (x i : BitVec 1) (o : BitVec 10)
  /-- R75. Stores the low bits of rd through the store queue. -/
  | st (g : Guard) (d a : Reg) (z : BitVec 2) (i : BitVec 1) (o : BitVec 10)
  /-- R79. Load that acquires at the scope held in a register. -/
  | ldAcq (g : Guard) (d a : Reg) (z : BitVec 2) (x : BitVec 1) (s : BitVec 4)
  /-- R79. Store that releases at the scope held in a register. -/
  | stRel (g : Guard) (d a : Reg) (z : BitVec 2) (s : BitVec 4)
  /-- R80. Holds later loads until every earlier store is performed. -/
  | mark (g : Guard)
  /-- R265. Release for earlier and acquire for later accesses at the scope in ra. -/
  | fence (g : Guard) (a : Reg)
  /-- R80. Waits for copy commands and SPAWNU updates into the own pool, then raises deferred faults. -/
  | drainPool (g : Guard)
  /-- R80. Waits for completions into other scratchpads of the cluster. -/
  | drainCluster (g : Guard)
  /-- R80. Waits for completions into device memory. -/
  | drainHbm (g : Guard)
  /-- R80. Waits for completions into the switch tier. -/
  | drainTier (g : Guard)
  /-- R81. Writes back the dirty slice line holding ra. -/
  | cwb (g : Guard) (a : Reg)
  /-- R81. Drops the line holding ra from slice and L1, privileged. -/
  | cinv (g : Guard) (a : Reg)
  /-- R81. Writes back and drops the line holding ra. -/
  | cflush (g : Guard) (a : Reg)
  /-- R82. Writes back every line meeting [ra, ra + rb), walked by the slices in parallel. -/
  | cwbr (g : Guard) (a b : Reg)
  /-- R82. Drops every line of a range, privileged. -/
  | cinvr (g : Guard) (a b : Reg)
  /-- R82. Writes back and drops every line of a range. -/
  | cflushr (g : Guard) (a b : Reg)
  /-- R81. Invalidates the core's L1 by generation. -/
  | l1inv (g : Guard)
  /-- R85. Network fetch-and-add at the home slice, combinable in the omega network. -/
  | faa (g : Guard) (d a b : Reg) (l : BitVec 3) (o : BitVec 2) (z : BitVec 1)
  /-- R83. Compare-and-swap with optional acquire on failure. -/
  | cas (g : Guard) (d a b : Reg) (l : BitVec 3) (f : BitVec 1) (o : BitVec 2) (z : BitVec 1)
  /-- R83. Atomic swap. -/
  | swp (g : Guard) (d a b : Reg) (l : BitVec 3) (o : BitVec 2) (z : BitVec 1)
  /-- R83. Atomic AND. -/
  | atomicAnd (g : Guard) (d a b : Reg) (l : BitVec 3) (o : BitVec 2) (z : BitVec 1)
  /-- R83. Atomic OR. -/
  | atomicOr (g : Guard) (d a b : Reg) (l : BitVec 3) (o : BitVec 2) (z : BitVec 1)
  /-- R83. Atomic XOR. -/
  | atomicXor (g : Guard) (d a b : Reg) (l : BitVec 3) (o : BitVec 2) (z : BitVec 1)
  /-- R83. Atomic signed minimum. -/
  | atomicMinI (g : Guard) (d a b : Reg) (l : BitVec 3) (o : BitVec 2) (z : BitVec 1)
  /-- R83. Atomic signed maximum. -/
  | atomicMaxI (g : Guard) (d a b : Reg) (l : BitVec 3) (o : BitVec 2) (z : BitVec 1)
  /-- R83. Atomic unsigned minimum. -/
  | atomicMinN (g : Guard) (d a b : Reg) (l : BitVec 3) (o : BitVec 2) (z : BitVec 1)
  /-- R83. Atomic unsigned maximum. -/
  | atomicMaxN (g : Guard) (d a b : Reg) (l : BitVec 3) (o : BitVec 2) (z : BitVec 1)
  /-- R83. Atomic floating add rounded to nearest-even. -/
  | fadda (g : Guard) (d a b : Reg) (l : BitVec 3) (o : BitVec 2) (z : BitVec 1)
  /-- R88. Compensated reduction step on a 16-byte sum/error pair, executed indivisibly. -/
  | redc (g : Guard) (a b : Reg) (l : BitVec 3) (o : BitVec 2) (z : BitVec 1)
  /-- R89. Sends a remote-update thread that performs one relaxed update and halts. -/
  | spawnu (g : Guard) (a b : Reg) (k : BitVec 4)
  /-- R91. Migrates the thread to the core that Table 1 names for ra. -/
  | mig (g : Guard) (a : Reg)
  /-- R91. Moves a guest thread back to its home core. -/
  | home (g : Guard)
  /-- R97. Sends a message of up to 16 words to a context class, releasing and waiting for acceptance. -/
  | send (g : Guard) (a b : Reg) (n : BitVec 4)
  /-- R98. Sends a promenade multicast over a rectangle and waits for its acknowledgement. -/
  | mcast (g : Guard) (a b : Reg) (n : BitVec 4)
  /-- R97. Clears the class's pending flag or waits for a deposit, then acquires. -/
  | recv (g : Guard) (c : BitVec 3)
  /-- R97. Binds a message class of the core to the issuing context with a deposit register. -/
  | bind (g : Guard) (d : Reg) (c : BitVec 3)
  /-- R100. Checks a descriptor, increments its counter and pushes it on the core's deque. -/
  | spawn (g : Guard) (a : Reg)
  /-- R100. Waits until a counter reads 0 at its home, then acquires. -/
  | join (g : Guard) (a : Reg)
  /-- R100. Raises deferred faults, drains, decrements the task counter and takes the next task. -/
  | taskend (g : Guard)
  /-- R101. Pushes a 64-byte command to the copy engine, releasing earlier stores. -/
  | epushCopy (g : Guard) (a : Reg)
  /-- R101. Pushes a command to the gather engine. -/
  | epushGather (g : Guard) (a : Reg)
  /-- R101. Pushes a command to the collective engine. -/
  | epushColl (g : Guard) (a : Reg)
  /-- R101. Pops one element of the copy result FIFO, acquiring it. -/
  | epopCopy (g : Guard) (d : Reg)
  /-- R101. Pops one element of the gather result FIFO. -/
  | epopGather (g : Guard) (d : Reg)
  /-- R101. Pops one element of the collective result FIFO. -/
  | epopColl (g : Guard) (d : Reg)
  /-- R103. Releases and offers rb to a post slot of a running job, waiting for ACK or NACK. -/
  | post (g : Guard) (a b : Reg)
  /-- R104. Checks a job image and requests a timed job with an absolute start stamp. -/
  | job (g : Guard) (d : Reg) (k : BitVec 3)
  /-- R104. Requests a timed job with a start stamp relative to PCC at acceptance. -/
  | jobRel (g : Guard) (d : Reg) (k : BitVec 3)
  /-- R105. Allocates unmirrored switch-tier memory and returns a pointer and reason code. -/
  | salloc (g : Guard) (d a b : Reg)
  /-- R105. Allocates switch-tier memory on a mirrored pair. -/
  | sallocMir (g : Guard) (d a b : Reg)
  /-- R106. Frees the switch-tier allocation whose base pointer is ra. -/
  | sfree (g : Guard) (a : Reg)
  /-- R106. Returns the size of the live allocation holding a pointer. -/
  | sinfoSize (g : Guard) (d a : Reg)
  /-- R106. Returns a switch's up bits and incarnation. -/
  | sinfoHealth (g : Guard) (d a : Reg)
  /-- R106. Returns the granules left to the space on a switch. -/
  | sinfoQuota (g : Guard) (d a : Reg)
  /-- R106. Returns a switch's current incarnation. -/
  | sinfoInc (g : Guard) (d a : Reg)
  /-- R107. Edge-core matrix-vector product of rows on the core's slice into FP32 results in the pool. -/
  | dotm (g : Guard) (d a : Reg) (t : BitVec 2)
  /-- R109. Returns from a trap to the frame PC with the saved privilege. -/
  | eret (g : Guard)
  /-- R109. Invalidates translations at every station and waits for all acknowledgements. -/
  | xinv (g : Guard) (a b : Reg)
  /-- R340. Fires the snapshot trigger for capture 64 cycles later. -/
  | snap (g : Guard)
  /-- R109. Traps as breakpoint. -/
  | bkpt (g : Guard)
  /-- R109. Traps as syscall with DETAIL n. -/
  | trap (g : Guard) (n : BitVec 8)
  /-- R110. Reads a system register into rd. -/
  | sysr (g : Guard) (d : Reg) (r : BitVec 10)
  /-- R110. Writes a system register that has no behaviour of its own, under the access checks. -/
  | sysw (g : Guard) (a : Reg) (r : BitVec 10)
  /-- R110. Switches the context's workspace to a new WP. -/
  | syswWp (g : Guard) (a : Reg)
  /-- R320. Sets the context's space id and invalidates L1. -/
  | syswSpace (g : Guard) (a : Reg)
  /-- R111. Writes the workspace boundary under the range checks, invalidating L1. -/
  | syswBndW (g : Guard) (a : Reg)
  /-- R111. Writes the scratchpad boundary under the range checks, invalidating L1. -/
  | syswBndS (g : Guard) (a : Reg)
  /-- R111. Writes the L1 boundary, powering banks down or up and invalidating L1. -/
  | syswBndL (g : Guard) (a : Reg)
  /-- R323. Writes a remote window register, checked when enabled. -/
  | syswWin (g : Guard) (a : Reg) (w : BitVec 2)
  /-- R310. Changes a hash mask of the interleave, running a change of the interleave registers. -/
  | syswHmask (g : Guard) (a : Reg) (h : BitVec 3)
  /-- R196. Sets the timed HBM shares, waiting when a share is lowered. -/
  | syswSlotmap (g : Guard) (a : Reg)
  /-- R308. Writes a domain-table base word, checking FIRST, and runs an interleave change. -/
  | syswDomtabB (g : Guard) (a : Reg) (k : BitVec 4)
  /-- R310. Writes a domain-table limit word and runs an interleave change. -/
  | syswDomtabL (g : Guard) (a : Reg) (k : BitVec 4)
  /-- R29. Pushes a zero-extended 15-bit literal. -/
  | lit (v : BitVec 15)
  /-- R29. Extends s0 by 14 bits in place. -/
  | ext (v : BitVec 14)
  /-- R120. Shifts s0 left, right logically or right arithmetically by n. -/
  | shls (k : BitVec 2) (n : BitVec 6)
  /-- R126. Pops a value into a stream setting. -/
  | setf (n : BitVec 8)
  /-- R132. Pushes a slot's close value onto a stream of the pipe. -/
  | take (e : BitVec 3)
  /-- R134. Declares a hold if the latest load of the tag is incomplete at its stamp. -/
  | await (n : BitVec 4)
  /-- R139. Loads bytes from device memory into W. -/
  | ldw (n : BitVec 4)
  /-- R139. Loads rows from device memory into A through a shape. -/
  | lda (n : BitVec 4)
  /-- R139. Loads bytes into scale memory. -/
  | lds (n : BitVec 4)
  /-- R142. Fetches W bytes from job pipes and multicasts them to pipes of the cluster. -/
  | pfw (f : BitVec 1)
  /-- R142. Fetches A bytes from job pipes and multicasts them. -/
  | pfa (f : BitVec 1)
  /-- R143. Loads W from the switch tier. -/
  | tfw (n : BitVec 4)
  /-- R143. Loads A rows from the switch tier. -/
  | tfa (n : BitVec 4)
  /-- R144. Gathers indexed rows from device memory into A. -/
  | gta (n : BitVec 4)
  /-- R155. Matrix tile command accumulating exact products into barchan slots. -/
  | mma (s : BitVec 5) (r w a : BitVec 1)
  /-- R155. Zeroes the slots and then accumulates a matrix tile. -/
  | mmaz (s : BitVec 5) (r w a : BitVec 1)
  /-- R159. Depthwise tile command over a circular line buffer. -/
  | dwa (s : BitVec 5)
  /-- R159. Zeroes the slots and then accumulates a depthwise tile. -/
  | dwaz (s : BitVec 5)
  /-- R168. Vector add in A. -/
  | vadd (s : BitVec 5)
  /-- R168. Vector subtract. -/
  | vsub (s : BitVec 5)
  /-- R168. Vector multiply. -/
  | vmul (s : BitVec 5)
  /-- R168. Vector fused multiply-add with one FP32 rounding. -/
  | vfma (s : BitVec 5)
  /-- R168. Vector maximumNumber. -/
  | vmax (s : BitVec 5)
  /-- R168. Vector minimumNumber. -/
  | vmin (s : BitVec 5)
  /-- R168. Vector absolute value. -/
  | vabs (s : BitVec 5)
  /-- R169. Correctly rounded vector exponential. -/
  | vexp (s : BitVec 5)
  /-- R169. Correctly rounded vector reciprocal. -/
  | vrcp (s : BitVec 5)
  /-- R169. Correctly rounded vector reciprocal square root. -/
  | vrsq (s : BitVec 5)
  /-- R168. Vector bit-exact select by a mask. -/
  | vsel (s : BitVec 5)
  /-- R170. Vector compare writing a bit mask. -/
  | vcmp (s : BitVec 5) (c : BitVec 3)
  /-- R171. Reduces each group of elements by sum, max, min or amax. -/
  | vred (s : BitVec 5) (o : BitVec 3)
  /-- R172. Vector conversion between float and integer types. -/
  | vcvt (d : BitVec 5) (s : BitVec 3)
  /-- R173. Resolves slots into canonical values in A. -/
  | vres (s : BitVec 5) (i : BitVec 1)
  /-- R174. Compares unresolved slots exactly with canonical values. -/
  | vcmpu (s : BitVec 5) (c : BitVec 3)
  /-- R175. Requantises INT32 elements by multipliers with shift, offset and saturation. -/
  | vrq (s : BitVec 5) (i : BitVec 1)
  /-- R168. Vector bit-exact copy. -/
  | vmov (s : BitVec 5)
  /-- R147. Resolves slots into A. -/
  | cprs (s : BitVec 5) (i : BitVec 1)
  /-- R147. Resolves slots into device memory. -/
  | cprh (s : BitVec 5) (i : BitVec 1)
  /-- R148. Selects the k greatest of each row of a slot matrix. -/
  | topr (s : BitVec 5)
  /-- R148. Selects the k greatest of each column of a slot matrix. -/
  | topc (s : BitVec 5)
  /-- R149. Loads raw slots from device memory into C. -/
  | fillc (n : BitVec 4)
  /-- R120. Pushes a copy of s0. -/
  | dup
  /-- R120. Pops s0. -/
  | drop
  /-- R120. Exchanges s0 and s1. -/
  | swap
  /-- R120. Pushes a copy of s1. -/
  | over
  /-- R120. Pops two entries and pushes their sum. -/
  | adds
  /-- R120. Pops two entries and pushes their difference. -/
  | subs
  /-- R115. Pops v and sets the next stamp to v. -/
  | atW
  /-- R115. Pops d and sets the next stamp to LAST + d. -/
  | dt
  /-- R123. Stores a popped value to the milestone word as a release, ordered after the job's earlier HBM writes. -/
  | rdv
  /-- R122. Pops a count and opens a hardware loop, or skips the body for 0. -/
  | loopW
  /-- R122. Opens a hardware loop from the LCOUNT, LSTART and LEND settings. -/
  | loopReg
  /-- R122. Decrements the innermost loop count and branches back or closes the loop. -/
  | endl
  /-- R124. Marks a pre-emption point in SEQ; a launched no-op elsewhere. -/
  | ppt
  /-- R125. Ends the stream at its stamp, counting it joined. -/
  | haltj
  /-- R120. Does nothing. -/
  | nopw
  /-- R127. Appends a format entry with the current scales and anchor to the format queue. -/
  | fmt
  /-- R128. Writes a code table of the pipe from a length word. -/
  | ctab
  /-- R129. Sets the W tensor scale. -/
  | tsclW
  /-- R129. Sets the A tensor scale. -/
  | tsclA
  /-- R131. Arms an oasis window on the pipe with a bias. -/
  | oasis
  /-- R133. Names the selector slot of a record's segment table. -/
  | segt
  /-- R130. Sets the pending anchor. -/
  | manc
  /-- R130. Clears the pending anchor. -/
  | mancOff
  /-- R135. Free word that selects between two stack entries by a condition. -/
  | selk
  /-- R136. Sets the live row count of a shape record. -/
  | shape
  /-- R137. Pushes its own written stamp. -/
  | rdpcc
  /-- R146. Copies bytes within A. -/
  | cpaa
  /-- R146. Copies bytes from A to device memory. -/
  | cpah
  /-- R149. Writes raw slots from C to device memory. -/
  | spill
  /-- R104. The partition front takes a JOB request, refuses it or accepts it and claims no bank. -/
  | jobAccept
  /-- R114. At PCC = S − 64 the job's streams begin decoding. -/
  | decodeStart
  /-- R3. At the close stamp each slot's value is fixed, defaults taken or a haboob declared. -/
  | oasisClose
  /-- R176. A post reaches its slot and is judged by that cycle's PCC. -/
  | postArrival
  /-- R103. The slot's ACK or NACK reaches the issuer, which continues or traps. -/
  | postAck
  /-- R192. The PCC reaches a declaration's hold stamp F and holds there. -/
  | holdOnset
  /-- R179. At r + H the hold ends, words stamped F issue and the PCC resumes. -/
  | haboobEnd
  /-- R188. A stream waiting at entry(0) resumes at entry(v) and rebases its span bias. -/
  | segmentRedirect
  /-- R124. No SEQ PPT within MAXGAP raises schedule-miss maxgap. -/
  | maxgapExpiry
  /-- R141. An untagged load incomplete at its deadline raises late-load. -/
  | loadDeadline
  /-- R140. An engine load completes into its buffer, releasing any AWAIT hold on it. -/
  | loadLanding
  /-- R158. A tile command's row accumulates into its slots in its completion cycle. -/
  | tileRowComplete
  /-- R167. A VXE step's element writes complete. -/
  | vxeStepComplete
  /-- R145. A CPE write to device memory is performed at its home slice. -/
  | cpeWritePerformed
  /-- R123. An RDV value is stored to the milestone word after the job's earlier HBM writes. -/
  | milestoneStore
  /-- R125. With every stream joined and operation complete, the front frees banks and stores the record and rendezvous. -/
  | jobComplete
  /-- R331. After a frozen job's operations complete, the front stores the fault word and counts and freezes the queue. -/
  | jobFaultRecord
  /-- R335. Clearing a bank of another space ends and the claiming access proceeds. -/
  | bankClearEnd
  /-- R336. A suspended job's claimed bank is written to its image, releasing the claim's hold. -/
  | bankWriteOutEnd
  /-- R337. A resumed job's bank is filled from its image. -/
  | bankFillEnd
  /-- R333. A victim reaches a stop point, stops decoding and its small state is written. -/
  | victimStop
  /-- R332. No stop point within MAXGAP + H refuses the JOB with reason 3. -/
  | displacementTimeout
  /-- R337. When its pipes are free the front restores a suspended job and shifts its stamps. -/
  | jobResume
  /-- R76. A thread load or store reaches a pipe window and is judged by that cycle's PCC. -/
  | oasisAccessArrival
  /-- R270. The oasis store buffer drains a line into a free bank cycle. -/
  | oasisStoreBufferDrain
  /-- R181. The front-end service forms a partition and sets its PCC to 0. -/
  | partitionForm
  /-- R181. The front-end service dissolves a partition, trapping its WAITC waiters. -/
  | partitionDissolve
  /-- R294. At wall cycle W0 every member of an aligned group sets PCC := P0. -/
  | alignPartitions
  /-- R196. A waiting SLOTMAP write takes effect at the next wheel turn. -/
  | slotmapTakeEffect
  /-- R275. The fetcher reads a queue's head packet and checks its mark and CRC. -/
  | packetFetch
  /-- R275. 256 cycles after a CRC failure the packet is read again, freezing with torn-packet after the fifth. -/
  | packetRefetch
  /-- R233. A LAUNCH packet is taken, checked and waits to place its root. -/
  | packetLaunch
  /-- R234. The root task is placed on an eligible core and started. -/
  | launchPlacement
  /-- R249. A GRAPH packet is taken and its graph checked. -/
  | packetGraph
  /-- R345. A COPY packet starts a front-end copy. -/
  | packetCopy
  /-- R346. A WAIT packet blocks the queue until its word reaches the value. -/
  | packetWait
  /-- R346. A SIGNAL packet stores a value as a release after earlier packets complete. -/
  | packetSignal
  /-- R346. A FENCE packet completes when every earlier packet has completed. -/
  | packetFence
  /-- R348. A coalesced MSI-X interrupt is sent at CTIME expiry or idle. -/
  | interruptSend
  /-- R251. A settled node starts running. -/
  | graphNodeStart
  /-- R249. Every 256 cycles a WAIT node reads its word with an acquire. -/
  | waitNodePoll
  /-- R249. A COPY node's bytes are all performed, or it fails. -/
  | copyNodeDone
  /-- R249. A SIGNAL node's store is performed. -/
  | signalNodeDone
  /-- R239. A core takes a task from the bottom of its deque onto a free context. -/
  | localStart
  /-- R239. A thief probes one victim deque every 32 cycles. -/
  | stealProbe
  /-- R240. A probe takes the top entry and starts the task, or fails. -/
  | stealProbeComplete
  /-- R243. An arriving caravan takes a free context, invalidates L1 and executes its instruction. -/
  | caravanAdmission
  /-- R93. A returning caravan writes its state into the home workspace, delivering any trap. -/
  | caravanReturnHome
  /-- R94. A lost caravan is resumed at home with caravan-lost. -/
  | caravanLost
  /-- R97. A message reaches the destination's inbound queue or is refused. -/
  | messageArrival
  /-- R276. A queued message is deposited into the bound registers when the class flag is clear. -/
  | messageDeposit
  /-- R97. Acceptance or refusal returns to a waiting SEND. -/
  | sendReply
  /-- R98. The promenade's acknowledgement returns to MCAST. -/
  | mcastAck
  /-- R89. A SPAWNU update is applied at its destination or dropped and recorded. -/
  | remoteUpdateApply
  /-- R66. The awaited counter reaches its target and the context becomes ready. -/
  | waitcWake
  /-- R229. A counter's 0 standing 64 cycles releases its JOIN waiters. -/
  | joinRelease
  /-- R77. A load's data reaches rd and the context becomes ready. -/
  | threadLoadReply
  /-- R257. A store is performed at its target and updates a present L1 copy. -/
  | storePerformed
  /-- R85. An atomic's reply returns, split among combined requests. -/
  | atomicReply
  /-- R324. A remote device acknowledges or refuses a store through a window. -/
  | windowStoreAck
  /-- R318. A station completes a page-table walk for a missing translation. -/
  | translationWalk
  /-- R38. The divider or normaliser takes a waiting context's instruction. -/
  | sharedUnitGrant
  /-- R82. Every line of a maintenance instruction is done and the context resumes. -/
  | maintenanceWalkDone
  /-- R80. A DRAIN's covered completions have all finished. -/
  | drainComplete
  /-- R319. All stations acknowledge an XINV. -/
  | xinvComplete
  /-- R105. The switch's allocation reply returns pointer and reason. -/
  | sallocReply
  /-- R106. The switch's free reply returns or traps. -/
  | sfreeReply
  /-- R107. DOTM's rows are done and rd := n. -/
  | dotmComplete
  /-- R102. A copy, gather or collective command reaches its FIFO head and is checked. -/
  | engineCommandStart
  /-- R101. A copy completes and pushes its tag when NOTIFY is set. -/
  | copyCommandComplete
  /-- R101. A gathered element is pushed when the result FIFO has room. -/
  | gatherElementPush
  /-- R101. All cores of the scope have pushed the sequence number and each receives the result. -/
  | collectiveComplete
  /-- R247. A wave of the termination tree gathers LIVE, DQ, SENT, RCVD, TJ and ENG. -/
  | terminationWave
  /-- R248. On done the front end completes the LAUNCH, ends retain tags and idles the cores. -/
  | jobDoneReport
  /-- R248. On deadlocked the front end freezes the queue with cause deadlock. -/
  | jobDeadlockReport
  /-- R351. A WAKE q write sets latch bit q, starting a wake if gated. -/
  | wakeWrite
  /-- R349. Resumes a frozen or suspended queue according to its cause. -/
  | qctlResume
  /-- R338. Suspends a running queue, pre-empting its contexts. -/
  | qctlSuspend
  /-- R349. Retires a torn or bad head packet with status 9. -/
  | qctlDiscard
  /-- R305. A host read through BAR2 is checked and served at the home slice. -/
  | hostBar2Read
  /-- R305. A host write through BAR2 is checked and performed in link order. -/
  | hostBar2Write
  /-- R352. After IDLE the device writes back slices and enters state 1. -/
  | powerGateEntry
  /-- R353. The wake sequence completes and latched bits are replayed in queue order. -/
  | wakeSequenceEnd
  /-- R354. VDD_CORE out of band for 10 µs reports a supply fault and enters state 2. -/
  | supplyFault
  /-- R355. At power-on or leaving state 2 the boot engine verifies the table and firmware. -/
  | powerOnBoot
  /-- R360. Side-band command reading DEVSTAT and the latch. -/
  | sidebandReadStatus
  /-- R360. Side-band command setting the power state. -/
  | sidebandSetPower
  /-- R360. Side-band command naming a snapshot cycle Z. -/
  | sidebandNameSnapshot
  /-- R360. Side-band command clearing a supply fault. -/
  | sidebandClearFault
  /-- R359. Side-band command fetching an attestation report. -/
  | sidebandAttest
  /-- R340. In cycle Z every core and pipe latches its snapshot record. -/
  | snapshotCapture
  /-- R357. Routers reload the firewall table after a generation store. -/
  | firewallReload
  /-- R277. A switch-loss declaration reaches a device, which then meets the lost ranges as lost. -/
  | switchLossNotice
  /-- R286. A port stays down past recovery and the device loses that switch alone. -/
  | portLossNotice
  /-- R288. A replaced switch is readmitted empty with a new incarnation. -/
  | switchReadmission
  /-- R288. The newcomer's fill from the survivor completes. -/
  | mirrorFillDone
  /-- R297. A flit failing its CRC is refused and the sender replays go-back-N. -/
  | flitReplay
  /-- R297. A header error found mid-forward stomps the packet, which is replayed. -/
  | packetStomp
  /-- R297. A link not retrained within 100 µs goes down. -/
  | linkDown
  /-- R295. A packet-class packet arrives and its header, key and tag are checked. -/
  | fabricPacketReceive
  /-- R291. A frame's control flit carries hold notices, alignment, GCM tag and credits. -/
  | controlFlit
  /-- R299. A wrapped fabric-job key is unwrapped into key slots. -/
  | keySlotLoad
  /-- R300. Dissolution zeroes a job's key slot on every port. -/
  | keySlotZero
  /-- R299. A slot's nonce counter would wrap, stopping sends and reporting. -/
  | nonceCounterWrap
  /-- R302. The Ultra Ethernet service takes a producer index and runs work requests. -/
  | ueWorkRequest
  /-- R303. An inbound Ultra Ethernet packet is delivered or refused and completions stored. -/
  | uePacketReceive
  /-- R310. In cycle P every agent learns the new interleave value as pending and slices begin scanning. -/
  | interleavePending
  /-- R310. In cycle X every agent adopts the new value and held requests are answered MOVED. -/
  | interleaveAdopt
  /-- R311. A requester receiving MOVED re-sends its requests to the new home in order. -/
  | movedReplay
  /-- R24. A thread word with an unassigned major, func10 or sub-field code, or a nonzero MBZ or unused field, traps precisely as illegal-instruction. -/
  | illegalInstruction
  /-- R29. A stream word with an unassigned op or a nonzero unassigned modifier bit raises illegal-word and freezes the job. -/
  | illegalWord
  /-- R65. A fetch at a target, or sequential execution past device memory, that is not device memory or fails translation traps as address-fault at the target. -/
  | fetchFault
  /-- R35. A started stream that decodes past its last word without HALTJ raises run-off and freezes the job. -/
  | runOff
  /-- R242. The holding core's deque accepts a pinned entry that SPAWN sent to it, or refuses it when full, and the waiting spawner resumes. -/
  | pinnedEntryAccept
  /-- R286. When a lost port recovers, the fabric manager clears the device's loss notice and the device uses switch k again with its pointers valid. -/
  | portLossClear
  /-- R297. A retraining link completes retraining within 100 µs and resumes carrying flits. -/
  | linkRetrainDone
  /-- R294. The fabric manager de-aligns an aligned group, after which its members' PCCs no longer hold together. -/
  | partitionDealign
  /-- R340. The latched snapshot records finish being written to the snapshot area, after which a trigger can fire again. -/
  | snapshotWriteDone
  /-- R302. The transport's retries for a work request run out and the service stores status 1 to its completion word. -/
  | ueRetriesExhausted
  /-- R362. The PCIe link of the bridging device trains to the highest common rate and the endpoint comes up. -/
  | hostLinkTraining
  /-- R282. The fabric manager changes a space's quota on a switch, which applies to later SALLOCs only. -/
  | quotaChange
  /-- R285. The domain is formed or formed anew, which sets switch and pair incarnations to 1 and fixes the frame epoch. -/
  | domainFormation
  deriving DecidableEq, Repr

end Sys2Proof
end

