-- ==== Sys2Proof/Machine/State.lean ====
section
/-! DEFINITION. The state of a Soaro domain of Gutur G4 devices: everything the spec gives the machine, as plain data
(INVENTORY.md, State). Tables hold the parts by number; a part that a table does not list is as at reset. -/

namespace Sys2Proof.Machine

/-- Stops of the whole machine. The spec names none: every thread fault is a trap (R37) and every stream fault
freezes a job (R119). -/
inductive Fault where
  /-- Raised by no meaning; safe. The spec gives no event that stops the domain. -/
  | domainStop
  deriving DecidableEq, Repr

/-- Refusals. -/
inductive Refusal where
  /-- Raised by an arm of Machine/Dispatch.lean that has no meaning yet; safe. -/
  | notModelled (mnemonic : String)
  deriving DecidableEq, Repr

/-! ## Thread contexts and cores -/

/-- One store in a context's store queue (R77, R259): the target, resolved at issue, and the bytes. -/
inductive Target where
  /-- A pool, by its owning core. -/
  | pool (core : CoreRef) (off : Nat)
  /-- Device memory: device, physical address, and the virtual address by which L1 knows the line. -/
  | dram (dev pa : Nat) (va : Word)
  /-- A bank of the switch tier: the switch named by the pointer, mirrored or not, and the offset. -/
  | tier (k : Nat) (mir : Bool) (off : Nat)
  deriving DecidableEq, Repr

/-- One entry of a context's store queue (R259). -/
structure StoreEntry where
  target : Target
  bytes : List Byte
  /-- The wall cycle of its issue (R311), and the space id under which its address was translated (R319). -/
  issued : Nat
  space : BitVec 16
  /-- A store to a mirrored range: the thread as it stands after the store (R284). -/
  after : Option Traveller
  /-- A MARK came after it: later loads wait until it is performed (R80). -/
  mark : Bool
  deriving DecidableEq, Repr

/-- What a departure that waits for its drain and for its followers will be (R69, R92, R93). -/
inductive Leaving where
  /-- To a core, to go on there at `pc`; `addr` is the address it is for. -/
  | go (dest : CoreRef) (pc addr : Word) (mirrored : Bool)
  /-- Home, to go on, to trap or to be pre-empted there. -/
  | home (pc : Word) (why : Homeward)
  deriving DecidableEq, Repr

/-- What a live context out of the rotation waits for (R236). -/
inductive Wait where
  /-- Forfeited turns (R38): back at the tail in this wall cycle; or, with `norm`, at the normaliser then (R54). -/
  | until (t : Nat) (norm : Bool)
  /-- A shared unit; the turns forfeited once it serves (R38, R55, R226), and whether the normaliser follows (R54). -/
  | unit (u : SharedUnit) (turns : Nat) (norm : Bool)
  /-- The next cycle, in which the instruction in progress tries again. -/
  | again
  /-- The store queue drains, and with `upd` the SPAWNU updates too; then the instruction in progress goes on (R79,
  R80, R92, R261, R267). -/
  | drain (upd : Bool)
  /-- The data of a load (R77): device served, physical and virtual address, and the level at which it acquires. -/
  | load (dev pa : Nat) (va : Word) (acq : Option Nat)
  /-- The reply of a network FAA at the home slice (R85), which adds v. -/
  | atomic (dev pa : Nat) (va v : Word)
  /-- The acknowledgement of a store through a window (R324): where, and the bytes. -/
  | window (dev pa : Nat) (va : Word) (bytes : List Byte)
  /-- A pipe's answer: a mapped access (R76, R270), with the level at which it acquires, or a POST (R103). -/
  | pipe (acq : Option Nat)
  /-- A counter (R66): the partition, or none for the WCC, and the target. -/
  | counter (k : Option Nat) (target : Word)
  /-- A deposit for class c (R97). -/
  | recv (c : Nat)
  /-- A JOIN counter (R100, R229), and the wall cycle since which its home holds 0. -/
  | join (va : Word) (zeroSince : Option Nat)
  /-- The acceptance of a SEND, or the acknowledgement of an MCAST (R97, R98), with the word that names where to and the
  message's number. -/
  | send (w : Word) (id : Nat)
  /-- A task: at TASKEND with an empty deque (R241). -/
  | steal
  /-- The line of the descriptor with which its task starts, while the line moves (R100, R313). -/
  | start (desc : Word)
  /-- Room in an engine's command FIFO, or an element of its result FIFO (R101). -/
  | push (e : CoreEngine)
  | pop (e : CoreEngine)
  /-- The completions that a DRAIN covers: 0 pool, 1 cluster, 2 hbm, 3 tier (R80); of copies, those numbered below
  `bound`. -/
  | drainMem (m bound : Nat)
  /-- The reply of SALLOC, SFREE, XINV, a cache maintenance walk, JOB (R82, R104 to R109), a SYSW of a package
  register (R110, R196, R310); with the two operands read at issue. -/
  | reply (x y : Word)
  /-- DOTM (R107, R272): the words of its command, the row being read, and the bytes of it read so far. -/
  | rows (cmd : List Word) (row : Nat) (got : List Byte)
  /-- Its queues drain and its followers come to rest; then its caravan leaves (R69, R92). -/
  | depart (l : Leaving)
  /-- At rest, as a context of a suspended job (R338). -/
  | rest
  deriving DecidableEq, Repr

/-- The state of a context (Table 3 of R236). `resume` is the moment at which an instruction whose wait has ended goes
on without a further issue turn. -/
inductive CtxMode where
  | free | ready | waiting (w : Wait) | resume | away
  deriving DecidableEq, Repr

/-- What the home context keeps of its last departure from home (R92, R94). -/
structure Departure where
  pc : Word
  addr : Word
  priv : Bool
  deriving DecidableEq, Repr

/-- A thread context of a core. Its registers, predicate word and trap frame are pool bytes at `wp` (R20, R37). -/
structure Ctx where
  mode : CtxMode
  pc : Word
  /-- SYS.WP, SYS.TVEC, SYS.CTX.PRIV, SYS.CTX.GUEST, SYS.SPACE and SYS.RECT (R111). -/
  wp : BitVec 18
  tvec : Word
  priv : Bool
  guest : Bool
  space : BitVec 16
  rect : BitVec 22
  /-- The instruction in progress, and the phase of it that a wait's end begins. -/
  cur : Option Instr
  phase : Nat
  /-- The registers as the instruction in progress read them at issue, when it goes on after a wait (R23, R36). -/
  held : Option (List Word)
  /-- The wall cycle of the last issue, forfeited turns included (R237, R38). -/
  last : Option Nat
  /-- The wall cycle in which a ready context joins the rotation (R236). -/
  readyAt : Nat
  stores : List StoreEntry
  /-- The home of a guest (R243). -/
  home : Option CtxRef
  departure : Option Departure
  /-- Follow groups (R68): the context this one follows; the rejoin record stands in the thread's home context. -/
  leader : Option Nat
  rejoin : Option CtxRef
  /-- The deferred-fault record (R90), in the thread's home context: recorded cause and address. -/
  deferred : Option (Nat × Word)
  /-- The update whose failure by a loss the record holds: its number in issue order, and the loss (R278). -/
  deferredBy : Option (Nat × Nat)
  /-- An access through a window that has not been performed: its device and its number in issue order (R324). -/
  asked : Option (Nat × Nat)
  /-- SPAWNU updates issued and not yet applied or dropped: their addresses (R80, R267). -/
  updates : List Word
  /-- The thread job, and the running task's counter address (R99, R100). -/
  tjob : Option Nat
  counter : Word
  /-- A guest on a switch core that came for a mirrored range resides on the pair: the state of it that the partner holds
  (R284). -/
  paired : Bool
  copy : Option Traveller
  /-- The context stands withdrawn by a suspension of its queue (R338). -/
  suspended : Bool
  deriving DecidableEq, Repr

/-- A copy of a 128-byte device-memory line in a core's L1, by virtual line number (R258, R320). -/
structure L1Line where
  line : Nat
  bytes : List Byte
  deriving DecidableEq, Repr

/-- A message class of a core (R97): the bound context and first register, the pending flag, and the queue. -/
structure MsgClass where
  bound : Option (Nat × Nat)
  pending : Bool
  /-- The pending deposit came from another device: RECV acquires at domain scope. -/
  remote : Bool
  queue : List Message
  deriving DecidableEq, Repr

/-- A command of a core engine, with the context that pushed it (R101). -/
structure EngineCommand where
  id : Nat
  owner : Nat
  space : BitVec 16
  priv : Bool
  tjob : Option Nat
  words : List Word
  /-- A copy in progress: the ranges, by offset and length, that it has still to read and to write, and the bytes it has read, by
  offset (R256, R269). -/
  left : List (Nat × Nat)
  due : List (Nat × Nat)
  got : Memory
  deriving DecidableEq, Repr

/-- One asynchronous engine of a core (R101, R102): command FIFO, result FIFO, commands in progress. -/
structure EngineState where
  fifo : List EngineCommand
  results : List Word
  active : List EngineCommand
  /-- Elements the active gather still has to push: the position in its list. -/
  next : Nat
  deriving DecidableEq, Repr

/-- A core's part in a steal set (R238, R239): the job, the last wall cycle of its outstanding probe, and the wall cycle of its
first probe as the thief that it is now. -/
structure StealState where
  tjob : Nat
  probing : Option Nat
  first : Option Nat
  deriving DecidableEq, Repr

/-- A thread core, an edge core or a switch core. -/
structure Core where
  /-- The banks of [0, BND.L) have power (R70, R111). -/
  powered : Bool
  /-- SYS.BND.W, .S, .L as bits [18:9] (R111). -/
  bndW : BitVec 10
  bndS : BitVec 10
  bndL : BitVec 10
  /-- SYS.WIN0 to SYS.WIN3 (R323). -/
  win0 : Word
  win1 : Word
  win2 : Word
  win3 : Word
  /-- The space id the core was last given (R71, R320), and the retain tag with the job that set it (R71). -/
  space : BitVec 16
  retain : Word
  retainJob : Option Nat
  l1 : List L1Line
  classes : Table MsgClass
  copy : EngineState
  gather : EngineState
  coll : EngineState
  /-- The shared units: busy until this wall cycle, and what waits in order: contexts, and from 16 on SPAWNU updates by their
  number (R38, R226). -/
  divBusy : Nat
  divQueue : List (Nat × Nat)
  normBusy : Nat
  normQueue : List Nat
  /-- The barrel: ready contexts in order (R237), the contexts a YIELD holds with those ahead of them, and the cycle
  before which bank stalls keep the core from issuing (R61). -/
  rot : List Nat
  held : List (Nat × List Nat)
  stall : Nat
  lastIssue : Option Nat
  /-- The deque: its top slot and length; its entries are pool bytes (R238). [log 11] -/
  dqTop : Nat
  dqLen : Nat
  /-- The wall cycle in which the deque's port last served an operation (R240). -/
  dqAt : Option Nat
  /-- Caravans waiting for a free context: the inbox of 4 and those behind it in the mesh (R243). -/
  inbox : List Caravan
  steal : Option StealState
  lastLocal : Option Nat
  /-- The path alternative by which the core's packets from a device to another go, by 192 × device + destination (R296). -/
  ways : Table Nat
  deriving DecidableEq, Repr

/-! ## The timed plane -/

/-- A mapped buffer range of an oasis record (Table 18). -/
structure MapRange where
  buf : Buf
  wr : Bool
  rd : Bool
  off : Nat
  len : Nat
  deriving DecidableEq, Repr

/-- A post slot's declaration (Table 18). -/
structure SlotDecl where
  bound : Nat
  default : Nat
  stall : Bool
  deriving DecidableEq, Repr

/-- An oasis record (Table 18). -/
structure OasisRecord where
  openAt : Nat
  len : Nat
  maps : List MapRange
  slots : List SlotDecl
  segtab : Option Nat
  deriving DecidableEq, Repr

/-- A shape record (Table 19). -/
structure ShapeRecord where
  buf : Buf
  base : Nat
  rows : Nat
  elem : Nat
  stride : Nat
  deriving DecidableEq, Repr

/-- A segment (Table 20): its length and the entry points of the five streams. -/
structure Segment where
  slen : Nat
  seq : Nat
  lde : Nat
  mxe : Nat
  vxe : Nat
  cpe : Nat
  deriving DecidableEq, Repr

/-- The latest arming of an oasis record in a job (R131, R186, R3): actual stamps, the pipes that armed it in the
order of their OASIS words, posted and fixed values of its slots. -/
structure Window where
  openAt : Nat
  closeAt : Nat
  armedAt : Nat
  armedBy : List Nat
  closed : Bool
  posted : List (Option Nat)
  fixed : List (Option Nat)
  /-- The selector slot that the close took (R187). -/
  sel : Nat
  /-- The wall cycle in which a stall selector's post was accepted after the close (R188). -/
  lateAt : Option Nat
  deriving DecidableEq, Repr

/-- Where a timed job stands (R184, R330, R334). -/
inductive JobState where
  | running | frozen | suspended | done
  deriving DecidableEq, Repr

/-- The fault that froze a job (R329, R331). -/
structure StreamFault where
  code : Nat
  detail : Nat
  pipe : Nat
  stream : Nat
  pcc : Nat
  deriving DecidableEq, Repr

/-- A timed job. -/
structure Job where
  part : PartRef
  src : CtxRef
  tjob : Option Nat
  space : BitVec 16
  prio : Nat
  /-- The pipes of the mask in ascending order: job-relative pipe i is entry i (R34). -/
  pipes : List Nat
  start : Nat
  maxgap : Nat
  rdv : Word
  latA : Nat
  latW : Nat
  aligned : Bool
  compat : Bool
  heavy : Nat
  shapes : List ShapeRecord
  oases : List OasisRecord
  segtabs : List (List Segment)
  windows : Table Window
  /-- The wall cycle in which the port of each post slot last took a post, by 16 × record + slot (R176). -/
  postAt : Table Nat
  /-- Armings of segmented windows that a later arming of their record has replaced, by record (R188). -/
  past : List (Nat × Window)
  /-- Selector slots named by SEGT, by record (R133). -/
  selectors : Table Nat
  state : JobState
  /-- RDV stores not yet performed: stamp, order within the stamp, value (R123). -/
  milestones : List (Nat × Nat × Word)
  fault : Option StreamFault
  /-- The fault word has been stored (R331). -/
  recorded : Bool
  /-- Banks written out to the pre-emption area, to be filled again: pipe and bank (R336, R337). -/
  images : List (Nat × Nat)
  /-- A displacing request has reached the front (R333). -/
  wanted : Bool
  /-- The actual stamp at which the job stopped (R333, R337). -/
  stopAt : Nat
  /-- The small state of a suspended job's pipes is in the pre-emption area from this wall cycle (R334). -/
  savedAt : Option Nat
  /-- Stretch cycles and budget-held cycles of its pipes (R185). -/
  conflicts : Nat
  budgetHolds : Nat
  deriving DecidableEq, Repr

/-- A hardware loop's latched values (R122): remaining count, first word, the ENDL's word when it is latched. -/
structure LoopFrame where
  count : Nat
  start : Nat
  last : Option Nat
  deriving DecidableEq, Repr

/-- The settings of a stream (Table 2 of R126). -/
structure Settings where
  rnd : Nat
  irnd : Nat
  lcount : Nat
  lstart : Nat
  lend : Nat
  deriving DecidableEq, Repr

/-- What a stream's decoder does. -/
inductive Decoder where
  /-- Before S − 64, or not started (R114). -/
  | idle
  | decoding
  /-- A LOOP with count 0 skips its body; the nesting depth so far (R122). -/
  | skipping (depth : Nat)
  /-- A launch word is ready and waits for its actual stamp (R114, R115). -/
  | launch (w : Instr) (stamp : Nat)
  /-- Stopped in front of entry(0) of a segmented window: the record, and the open stamp of the arming (R188). -/
  | entry (record openAt : Nat)
  /-- HALTJ has issued (R125). -/
  | ended
  deriving DecidableEq, Repr

/-- One engine stream (R113 to R126). -/
structure Stream where
  started : Bool
  code : List (BitVec 16)
  pos : Nat
  /-- s0 first. -/
  stack : List Word
  next : Int
  /-- An AT or DT has been decoded since the last launch (R115). -/
  stamped : Bool
  last : Int
  lastInterval : Nat
  /-- Stretch cycles of the last launch's operation (R200). -/
  lastStretch : Nat
  /-- The span bias B (R186). -/
  bias : Int
  sets : Settings
  loops : List LoopFrame
  dec : Decoder
  /-- Words decoded in the current plane cycle; 4 ends the cycle's decoding (R114). -/
  budget : Nat
  /-- Armed segmented windows that still owe this stream a redirect, in OASIS order: the record, and the open stamp of the
  arming (R188). -/
  owed : List (Nat × Nat)
  /-- The least actual stamp of the first launch word after a redirect (R190). -/
  bound : Option Nat
  /-- The arrival at the word at `pos` has been taken by a redirect (R188). -/
  taken : Bool
  deriving DecidableEq, Repr

/-- An entry of the format queue (R127). -/
structure FmtEntry where
  word : Word
  tw : BitVec 32
  ta : BitVec 32
  anchor : Option Int
  deriving DecidableEq, Repr

/-- A barchan slot of C (R218). S is `sum` where software or the reset gave the pair, and an open value that
Config.sumVector names where an accumulate left it (R219); C is Wv − S. -/
structure Slot where
  wv : BitVec 96
  sum : Sum (BitVec 96) Nat
  anchor : BitVec 10
  count : BitVec 16
  n : Bool
  pi : Bool
  mi : Bool
  x : Bool
  v : Bool
  res : BitVec 33
  deriving DecidableEq, Repr

/-- What an operation in flight does in one of its cycles. -/
inductive Act where
  /-- Reads bytes of a buffer of a pipe and captures them under a key: a line of A, slots of C, bytes of W. `sched`
  marks an access that claims its bank (R198). -/
  | read (p : PipeRef) (buf : Buf) (off len key : Nat) (sched : Bool)
  /-- The entropy decoder takes the next eight blocks, group j, of the tile at an offset of a pipe's W (R215). -/
  | ec (p : PipeRef) (off j : Nat)
  /-- Claims the bank of the write that completes with unit i (R198). -/
  | claim (buf : Buf) (off i : Nat)
  /-- The request of unit i of a load goes out (R194). -/
  | request (i : Nat)
  /-- Uses a bank cycle of a VXE step for a line of A, by relative cycle `last` at the latest (R199): to read `len` bytes of it,
  or with 0 to write. -/
  | use (buf : Buf) (off len last : Nat)
  /-- Reads slots of the pipe's C for a VXE step and captures them under a key, by relative cycle `last` at the latest (R167,
  R199). -/
  | units (off len key last : Nat)
  /-- The step, row or unit i completes. -/
  | complete (i : Nat)
  deriving DecidableEq, Repr

/-- An act with the plane cycle, counted from the issue and stretches apart, in which it falls. -/
structure Planned where
  cycle : Nat
  act : Act
  deriving DecidableEq, Repr

/-- A range of a buffer that an operation touches. -/
structure Range where
  pipe : PipeRef
  buf : Buf
  off : Nat
  len : Nat
  deriving DecidableEq, Repr

/-- A unit of a load, what it fills of one 64-byte line of the buffer: source address, offset and length. -/
structure LoadUnit where
  addr : Word
  off : Nat
  len : Nat
  /-- The bytes that its request has read so far at the slice or the switch (R256, R271). -/
  got : List Byte
  /-- The wall cycle of its reserved slot (R292). -/
  due : Option Nat
  landed : Bool
  deriving DecidableEq, Repr

/-- An operation in flight on a pipe. -/
structure Op where
  job : Nat
  eng : Engine
  word : Instr
  /-- Operands as popped, the first popped first, and the format entry of a tile command. -/
  args : List Word
  fmt : Option FmtEntry
  code : Word
  rnd : Nat
  irnd : Nat
  issue : Nat
  /-- Plane cycles of the operation that have passed, stretch cycles not counted. -/
  rel : Nat
  interval : Nat
  stretch : Nat
  plan : List Planned
  /-- Bytes captured, by pipe, buffer and offset; slots captured, by pipe and number. -/
  bytes : Memory
  slots : Table Slot
  /-- Shape rows and the row count taken at issue. -/
  shape : Option ShapeRecord
  rows : Nat
  /-- Loads: tag, units, the buffer they fill, the deadline as an actual stamp; whether an AWAIT held for it. -/
  tag : Nat
  dest : Buf
  units : List LoadUnit
  deadline : Nat
  awaited : Bool
  /-- Device-memory writes not yet performed: number, address and bytes (R145, R228). -/
  writes : List (Nat × Word × List Byte)
  /-- The buffer ranges that it reads, and those that it writes (R193, R336). -/
  reads : List Range
  dsts : List Range
  /-- Bytes of an entropy-coded tile decoded so far. -/
  ecPos : Nat
  /-- A block could not be decoded, or a row broke the headroom limit: later rows stay unchanged (R162). -/
  dead : Bool
  deriving DecidableEq, Repr

/-- The owner tag of a bank (R335): the owning job, else the space id of the last owner. -/
structure Owner where
  job : Option Nat
  last : Option (BitVec 16)
  deriving DecidableEq, Repr

/-- How a claimed bank becomes usable (R335 to R337): the job owns it; at once; behind an earlier claim of it; cleared; after the
victim's write-out; filled from the job's image. -/
inductive ClaimKind where
  | own | free | behind | clear | writeOut | fill
  deriving DecidableEq, Repr

/-- A claim of a bank that is not over (R335 to R337): the claiming job, the victim of a write-out, the wall cycle of the claim
and the cycles after it at which its turn may come. -/
structure BankClaim where
  bank : BankRef
  kind : ClaimKind
  job : Nat
  victim : Option Nat
  cycle : Nat
  lat : Nat
  deriving DecidableEq, Repr

/-- A line of a pipe's oasis store buffer (R270): buffer A, the 64-byte line, the bytes with their offsets. -/
structure BufferLine where
  line : Nat
  bytes : List (Nat × Byte)
  deriving DecidableEq, Repr

/-- The small state of a displaced job on one pipe (R334). -/
structure SmallState where
  streams : List Stream
  fmtq : List FmtEntry
  scaleW : BitVec 32
  scaleA : BitVec 32
  anchor : Option Int
  ctabs : Table Word
  live : Table Nat
  awaits : Table (Nat × List Range)
  tagRanges : Table (List Range)
  latest : Table Nat
  pptAt : Option Nat
  seqEnded : Bool
  conflicts : Nat
  slip : Nat
  deriving DecidableEq, Repr

/-- A tensor pipe. Its W and A bytes and C slots are held in State's `wbuf`, `abuf` and `slots`. -/
structure Pipe where
  job : Option Nat
  suspended : Option Nat
  ctabs : Table Word
  fmtq : List FmtEntry
  scaleW : BitVec 32
  scaleA : BitVec 32
  anchor : Option Int
  /-- Live row counts by shape record, where SHAPE set one (R136). -/
  live : Table Nat
  ops : Table Op
  sbuf : List BufferLine
  waiters : List OasisReq
  owners : Table Owner
  conflicts : Nat
  /-- Q of R203: plane cycles of the job that have passed on this pipe, less budget-held ones. -/
  slip : Nat
  /-- Actual stamp of the last SEQ PPT, if one has issued (R124). -/
  pptAt : Option Nat
  seqEnded : Bool
  /-- The latest AWAIT of each tag: its actual stamp, and what the loads of the tag that it follows fill (R193). -/
  awaits : Table (Nat × List Range)
  /-- What the loads of each tag fill (R193), and the most recent load of each tag (R134). -/
  tagRanges : Table (List Range)
  latest : Table Nat
  /-- Bank claims that are not over, in the order in which they are served, and the wall cycle in which the last one ended
  (R336). -/
  claims : List BankClaim
  claimEnd : Nat
  /-- Banks that scheduled accesses claimed in the current plane cycle (R198). -/
  usedA : List Nat
  usedC : List Nat
  /-- A pipe the power budget holds in the current cycle (R203). -/
  budgetHeld : Bool
  /-- The saved small state of the suspended job (R334). -/
  saved : Option SmallState
  deriving DecidableEq, Repr

/-- What released a hold declaration waits for (R191). -/
inductive HoldCause where
  | close (job record : Nat)
  | await (p : PipeRef) (op : Nat)
  | bank (b : BankRef)
  | remote (part : PartRef)
  deriving DecidableEq, Repr

/-- A hold declaration (R191): actual cycle d, hold stamp F, the release wall cycle once it is known. -/
structure Hold where
  job : Nat
  d : Nat
  f : Nat
  release : Option Nat
  cause : HoldCause
  deriving DecidableEq, Repr

/-- A timed partition (R181 to R183). -/
structure Partition where
  formed : Bool
  clusters : List Nat
  pcc : Nat
  holds : List Hold
  /-- The aligned group it belongs to (R183, R294). -/
  group : Option Nat
  /-- JOB requests that wait for their victims to stop, with the PCC of their arrival (R332). -/
  requests : List (Nat × JobReq × List Nat)
  /-- The PCC keeps its value in the current wall cycle (R192). -/
  held : Bool
  deriving DecidableEq, Repr

/-! ## Thread jobs, graphs and queues -/

/-- Where a thread job stands (R235, R247, R248). -/
inductive TJobState where
  | placing | running | deadlocked | doubleFault | jobFault | suspended | done
  deriving DecidableEq, Repr

/-- A thread job (R231): what its LAUNCH gave it, its steal set, the counts of R247 and the last wave. -/
structure TJob where
  dev : Nat
  queue : Nat
  seq : Nat
  /-- The graph and node whose LAUNCH it is, if one is. -/
  node : Option (Nat × Nat)
  prio : Nat
  space : BitVec 16
  tvec : Word
  rect : BitVec 22
  root : Word
  maxgap : Nat
  bndW : BitVec 10
  bndS : BitVec 10
  bndL : BitVec 10
  wins : List Word
  sent : Nat
  rcvd : Nat
  dqEmpty : Bool
  /-- Last wave: 0 neither, 1 done, 2 deadlocked, with its SENT. -/
  wave : Nat × Nat
  state : TJobState
  deriving DecidableEq, Repr

/-- A front-end copy under way: the ranges, by offset and length, that it has still to read and to write, and the bytes it has
read, by offset (R249, R256). -/
structure CopyWork where
  left : List (Nat × Nat)
  due : List (Nat × Nat)
  got : Memory
  deriving DecidableEq, Repr

/-- A running graph (R249 to R254). -/
structure Graph where
  dev : Nat
  queue : Nat
  seq : Nat
  space : BitVec 16
  /-- The node records, taken when the graph was checked. -/
  nodes : List (List Word)
  stat : Word
  status : Table Nat
  /-- Predecessors ended so far, and how: ended, skipped, cancelled or failed. -/
  ended : Table (Nat × Nat × Nat)
  iterations : Table Nat
  /-- Settled nodes whose start is on its way (R251). -/
  going : List Nat
  /-- COPY nodes under way, by node (R256). -/
  copies : Table CopyWork
  /-- Nodes whose status byte's store is held while its line moves (R313). -/
  unstored : List Nat
  failed : Bool
  cause : Nat
  deriving DecidableEq, Repr

/-- A packet that the fetcher has read, to be taken (R342), or that was taken and is not retired (R346, R347). -/
structure Packet where
  seq : Nat
  kind : Nat
  int : Bool
  words : List Word
  taken : Bool
  started : Bool
  /-- A COPY under way (R256). -/
  copy : CopyWork
  /-- Its status once it has completed. -/
  done : Option Nat
  deriving DecidableEq, Repr

/-- A command queue (R341 to R349). -/
structure Queue where
  ring : Word
  prio : Nat
  en : Bool
  logn : Nat
  space : BitVec 16
  ctime : Nat
  compl : Word
  tvec : Word
  /-- 0 running, 1 frozen, 2 suspended, 3 disabled (QSTAT). -/
  state : Nat
  cause : Nat
  /-- The thread job, the packet or the graph node that froze the queue. -/
  culprit : Operand
  /-- Causes met while the queue was not running, each with its culprit. -/
  pending : List (Nat × Operand)
  next : Nat
  consumed : Nat
  packets : List Packet
  retired : Nat
  status : Nat
  statusSeq : Nat
  refetch : Nat
  /-- A retirement with INT awaits its record's store; then the wall cycle by which its interrupt is sent (R348). -/
  intOwed : Bool
  intDue : Option Nat
  /-- Retirements whose completion record has not been stored yet (R347). -/
  recordOwed : Bool
  fetching : Bool
  deriving DecidableEq, Repr

/-! ## The device, its ports and the switch tier -/

/-- A cached leaf translation of a station (R318). -/
structure TlbEntry where
  /-- The station, VA[22:16] of the request that walked. -/
  station : Nat
  space : BitVec 16
  base : Nat
  size : Nat
  pa : Nat
  wr : Bool
  ex : Bool
  pv : Bool
  masters : BitVec 6
  deriving DecidableEq, Repr

/-- A pending change of the interleave registers or a waiting SYSW of SYS.SLOTMAP (R196, R310). -/
structure Change where
  issuer : CtxRef
  reg : Nat
  value : Word
  /-- P has passed: moving lines are held (R310, R311); and the cycle P. -/
  pending : Bool
  p : Nat
  deriving DecidableEq, Repr

/-- A key slot (R299, R300): the key, the nonce counters outbound and inbound, the space ids of the fabric job. -/
structure KeySlot where
  key : List Byte
  outbound : Nat
  inbound : Nat
  spaces : List Nat
  deriving DecidableEq, Repr

/-- A Soaro port (R290 to R300). -/
structure Port where
  up : Bool
  retraining : Bool
  replays : Nat
  errors : Nat
  credits : Nat
  /-- Loaded key slots, and those that a nonce counter stopped (R299). -/
  keys : Table KeySlot
  stopped : List Nat
  /-- The space ids of the slots that were zeroed and have not been loaded for them again (R300). -/
  zeroed : List Nat
  /-- Packets of the retry buffer that are replayed, the oldest first (R297). -/
  retry : List FabricPacket
  /-- Masks of reserved slots, by partition: outbound and inbound (R291); the first inbound slot, counted from the epoch, that
  no earlier read of a partition has taken (R292). -/
  maskOut : Table Nat
  maskIn : Table Nat
  nextIn : Table Nat
  deriving DecidableEq, Repr

/-- A send that is landing in a receive (R302): its peer and number, the receive, and the bytes landed. -/
structure UeLanding where
  peer : Nat
  number : Nat
  receive : List Word
  count : Nat
  deriving DecidableEq, Repr

/-- An Ultra Ethernet queue (R302). -/
structure UeQueue where
  ring : Word
  logn : Nat
  space : BitVec 16
  consumer : Nat
  /-- The endpoint table. -/
  peers : List Nat
  /-- Posted receives, the oldest first, and requests that have not ended, by number (R302). -/
  receives : List (List Word)
  outstanding : Table (List Word)
  landings : List UeLanding
  /-- Numbers of the next ROD request to each peer, and of the next ROD delivery from it (R303). -/
  nextOut : Table Nat
  nextIn : Table Nat
  regions : Table (Word × Nat)
  refused : Nat
  deriving DecidableEq, Repr

/-- The fields of the configuration table that the boot engine took (R355). -/
structure BootConfig where
  colx0 : Nat
  colx1 : Nat
  roles : Nat
  qbase : Nat
  spbase : Nat
  fwbase : Nat
  snapbase : Nat
  prebase : Nat
  ctxbase : Nat
  roottab : Nat
  parts : Nat
  bridge : Bool
  group : Nat
  idle : Nat
  deriving DecidableEq, Repr

/-- A G4 device: what is neither a core, a pipe, a partition, a queue nor a port. -/
structure Device where
  /-- SYS.DOMTAB.B0 to B15 and L0 to L15, SYS.HMASK0 to HMASK6 (R307), SYS.SLOTMAP (R195): where written. -/
  domB : Table Word
  domL : Table Word
  hmask : Table Word
  slotmap : Word
  change : Option Change
  slotWait : Option Change
  moved : List CtxRef
  tlb : List TlbEntry
  /-- Maintenance walks in progress (R82, R314). -/
  walks : List CtxRef
  /-- Firewall registers (R357). -/
  fwValid : Bool
  firewall : Table (Word × Word)
  /-- The bridge's refusal counter (R322). -/
  refusals : Nat
  /-- The queue last taken from at each priority, and the wall cycle of the last take (R342). -/
  turn : Table Nat
  tookAt : Option Nat
  /-- Sequence numbers applied, by source device (R298). -/
  seen : Table (List Nat)
  /-- The always-on island (R350 to R360). -/
  latch : BitVec 64
  power : Nat
  bootStatus : Nat
  leaf : Nat
  floor : Nat
  /-- VERSION and the measurements of the accepted table and image (R355, R359). -/
  version : Nat
  measures : List Byte
  ignored : Nat
  waking : Bool
  heldBar2 : List HostReq
  idleSince : Option Nat
  config : BootConfig
  linkRate : Nat
  /-- The four path alternatives to a destination device, where the firmware wrote them (R296). -/
  paths : Table (List (Option Nat))
  /-- Loss notices held, by switch, and switches lost to this device alone (R286). -/
  lost : List Nat
  portLost : List Nat
  /-- The snapshot trigger (R340). -/
  snapWriting : Bool
  drops : Nat
  captures : Nat
  snap : List (Nat × Word)
  deriving DecidableEq, Repr

/-- A dirty line of a memory-side slice (R363): the home that holds it, and what HBM still holds of it. -/
structure DirtyLine where
  home : Nat
  hbm : List Byte
  deriving DecidableEq, Repr

/-- An allocation of the switch tier (R105, R281). For a mirrored one the switch is the even member. -/
structure Alloc where
  switch : Nat
  mir : Bool
  off : Nat
  size : Nat
  space : BitVec 16
  inc : Nat
  /-- It was freed; which counter governs a pointer to it stands (R106, R285). -/
  freed : Bool
  deriving DecidableEq, Repr

/-- A switch of the domain (R280 to R288). -/
structure Switch where
  up : Bool
  inc : Nat
  /-- Its last loss was a loss of the pair (R286). -/
  tookPair : Bool
  /-- Port losses declared for it: the wall cycle and the device (R286). -/
  losses : List (Nat × Nat)
  /-- It is being filled from its pair's survivor (R288). -/
  filling : Bool
  /-- Quotas in granules, by space id (R282). -/
  quota : Table Nat
  deriving DecidableEq, Repr

/-- A message to the world outside the domain: interrupts, replies to the host, side-band answers, reports. -/
inductive Outward where
  | interrupt (vector : Nat)
  | readReply (tag : Nat) (bytes : List Byte)
  | completerAbort (tag : Nat)
  | unsupportedRequest (tag : Nat)
  | status (dev : Nat) (devstat latch : Word)
  | attestation (dev : Nat) (report : Option (List Byte))
  | fabricReport (dev k : Nat)
  | ueSend (dev uq wr peer : Nat) (rod : Option Nat) (write : Option (Word × Nat)) (packets : List (List Byte))
  | ueRefuse (dev uq peer : Nat)
  deriving DecidableEq, Repr

/-- The state of the domain. -/
structure State where
  /-- WCC: one wall cycle counter for the domain (R4, R182, R290). [log 3] -/
  wcc : Nat
  cores : Table Core
  ctxs : Table Ctx
  /-- The pools of all cores, at core number × 2^18 + offset (R111). -/
  pool : Memory
  devs : Table Device
  /-- Device memory as its homes serve it, at device × 2^39 + physical address, and its dirty lines. [log 12] -/
  dram : Memory
  dirty : Table DirtyLine
  pipes : Table Pipe
  streams : Table Stream
  wbuf : Memory
  abuf : Memory
  slots : Table Slot
  parts : Table Partition
  groups : Table (List PartRef)
  jobs : Table Job
  tjobs : Table TJob
  graphs : Table Graph
  queues : Table Queue
  ports : Table Port
  ues : Table UeQueue
  flash : Memory
  switches : Table Switch
  /-- Pair incarnations, by j (R285), and the allocations of the tier, the latest first. -/
  pairs : Table Nat
  allocs : List Alloc
  /-- The banks of the tier, at switch × 2^38 + offset. -/
  tier : Memory
  /-- Contributions to collectives: key, core, context, value (R101). -/
  colls : Table (List (CoreRef × Nat × Nat × Word))
  /-- The wall cycle of the domain epoch (R290). -/
  epoch : Nat
  /-- Model: events in flight and inputs, each with the wall cycle it is due in. [log 4] -/
  agenda : List (Nat × Instr × Operand)
  /-- Model: the operand of the event that acts in this step. [log 5] -/
  ev : Operand
  /-- Model: how many free choices have been taken. [log 4] -/
  fresh : Nat
  /-- Model: numbers for operations, jobs and commands. -/
  serial : Nat
  /-- Model: the thread context and the stream that act in this step. [log 5] -/
  tf : CtxRef
  sf : StreamRef
  /-- Model: how far the current wall cycle has been worked through. [log 5] -/
  phase : Nat
  outbox : List Outward
  deriving DecidableEq, Repr

/-! ## Reset values -/

/-- A free context: its registers hold no value across the free list (R111). -/
def Ctx.reset : Ctx :=
  { mode := .free, pc := 0, wp := 0, tvec := 0, priv := false, guest := false, space := 0, rect := 0, cur := none,
    phase := 0, held := none, last := none, readyAt := 0, stores := [], home := none, departure := none, leader := none,
    rejoin := none, deferred := none, deferredBy := none, asked := none, updates := [], tjob := none, counter := 0,
    paired := false, copy := none, suspended := false }

/-- An engine with empty FIFOs. -/
def EngineState.reset : EngineState := { fifo := [], results := [], active := [], next := 0 }

/-- A message class that no context has bound. -/
def MsgClass.reset : MsgClass := { bound := none, pending := false, remote := false, queue := [] }

/-- A core after power-on. -/
def Core.reset : Core :=
  { powered := false, bndW := 0, bndS := 0, bndL := 0, win0 := 0, win1 := 0, win2 := 0, win3 := 0, space := 0,
    retain := 0, retainJob := none, l1 := [], classes := [], copy := .reset, gather := .reset, coll := .reset,
    divBusy := 0, divQueue := [], normBusy := 0, normQueue := [], rot := [], held := [], stall := 0,
    lastIssue := none, dqTop := 0, dqLen := 0, dqAt := none, inbox := [], steal := none, lastLocal := none, ways := [] }

/-- Settings at job start (Table 2 of R126). -/
def Settings.reset : Settings := { rnd := 0, irnd := 0, lcount := 1, lstart := 0, lend := 0 }

/-- A stream that no job has started. -/
def Stream.reset : Stream :=
  { started := false, code := [], pos := 0, stack := [], next := 0, stamped := false, last := 0, lastInterval := 0, lastStretch := 0,
    bias := 0, sets := .reset, loops := [], dec := .idle, budget := 0, owed := [], bound := none, taken := false }

/-- A slot of all zero bits. -/
def Slot.zero : Slot :=
  { wv := 0, sum := .inl 0, anchor := 0, count := 0, n := false, pi := false, mi := false, x := false, v := false,
    res := 0 }

/-- A bank that has had no owner (R335). -/
def Owner.reset : Owner := { job := none, last := none }

/-- A pipe on which no job runs; the tensor scales are 1.0 (R129). -/
def Pipe.reset : Pipe :=
  { job := none, suspended := none, ctabs := [], fmtq := [], scaleW := 0x3F800000, scaleA := 0x3F800000,
    anchor := none, live := [], ops := [], sbuf := [], waiters := [], owners := [], conflicts := 0,
    slip := 0, pptAt := none, seqEnded := false, awaits := [], tagRanges := [], latest := [], claims := [], claimEnd := 0,
    usedA := [], usedC := [], budgetHeld := false, saved := none }

/-- A partition that is not formed: its PCC reads 0 (R67). -/
def Partition.reset : Partition :=
  { formed := false, clusters := [], pcc := 0, holds := [], group := none, requests := [], held := false }

/-- A copy that has nothing to do. -/
def CopyWork.none : CopyWork := { left := [], due := [], got := [] }

/-- A copy of n bytes that has not begun. -/
def CopyWork.of (n : Nat) : CopyWork := { left := [(0, n)], due := [(0, n)], got := [] }

/-- A queue whose descriptor has EN = 0 (R341). -/
def Queue.reset : Queue :=
  { ring := 0, prio := 0, en := false, logn := 0, space := 0, ctime := 0, compl := 0, tvec := 0, state := 3,
    cause := 0, culprit := .none, pending := [], next := 0, consumed := 0, packets := [], retired := 0, status := 0, statusSeq := 0,
    refetch := 0, intOwed := false, intDue := none, recordOwed := false, fetching := false }

/-- A port whose link is up and whose key slots hold nothing. [log 1] -/
def Port.reset : Port :=
  { up := true, retraining := false, replays := 0, errors := 0, credits := 0, keys := [], stopped := [], zeroed := [],
    retry := [], maskOut := [], maskIn := [], nextIn := [] }

/-- A queue of the Ultra Ethernet service that the firmware has not set up. -/
def UeQueue.reset : UeQueue :=
  { ring := 0, logn := 0, space := 0, consumer := 0, peers := [], receives := [], outstanding := [], landings := [], nextOut := [],
    nextIn := [], regions := [], refused := 0 }

/-- The default configuration: COLX0 = 0 and no second column (R355); the bases are not set. [log 1] -/
def BootConfig.reset : BootConfig :=
  { colx0 := 0, colx1 := 0xFF, roles := 0, qbase := 0, spbase := 0, fwbase := 0, snapbase := 0, prebase := 0,
    ctxbase := 0, roottab := 0, parts := 0xFFFFFFFF, bridge := false, group := 0, idle := 0 }

/-- A device at power-on: active, booting (R350, R355). -/
def Device.reset : Device :=
  { domB := [], domL := [], hmask := [], slotmap := 0x00000000CCCCCCCC, change := none, slotWait := none, moved := [],
    tlb := [], walks := [], fwValid := false, firewall := [], refusals := 0, turn := [], tookAt := none, seen := [], latch := 0, power := 0,
    bootStatus := 1, leaf := 0, floor := 0, version := 0, measures := [], ignored := 0, waking := false, heldBar2 := [], idleSince := none,
    config := .reset, linkRate := 0, paths := [], lost := [], portLost := [], snapWriting := false, drops := 0,
    captures := 0, snap := [] }

/-- A switch when the domain is formed (R282, R285). -/
def Switch.reset : Switch := { up := true, inc := 1, tookPair := false, losses := [], filling := false, quota := [] }

/-- The domain right after reset: nothing is listed, every part is at its reset value. -/
def State.reset : State :=
  { wcc := 0, cores := [], ctxs := [], pool := [], devs := [], dram := [], dirty := [], pipes := [], streams := [],
    wbuf := [], abuf := [], slots := [], parts := [], groups := [], jobs := [], tjobs := [], graphs := [],
    queues := [], ports := [], ues := [], flash := [], switches := [], pairs := [], allocs := [], tier := [],
    colls := [], epoch := 0, agenda := [], ev := .none, fresh := 0, serial := 0, tf := ⟨.thread 0 0 0, 0⟩,
    sf := ⟨⟨0, 0⟩, .seq⟩, phase := 0, outbox := [] }

end Sys2Proof.Machine
end

