-- ==== Sys2Proof/Machine/Ops.lean ====
section
/-! DEFINITION. The named operations: numbering (R7), registers and predicates (R20), the rotation (R236, R237), free
choices, translation (R315 to R319), device memory, L1, address classes (R73, R74), taking a trap and returning from
one (R108, R109, R327, R328), departures (R92) and halting (R70). -/

namespace Sys2Proof

/-! ## Numbers of parts (R7) -/

/-- A core's number in the tables. -/
def CoreRef.code : CoreRef → Nat
  | .thread d x y => d * 2048 + y * 64 + x
  | .edge d e => d * 2048 + 1024 + e
  | .switch k b => 393216 + k * 64 + b

/-- A context's number in the tables. -/
def CtxRef.code (t : CtxRef) : Nat := t.core.code * 16 + t.n

/-- The core of a number. -/
def CoreRef.ofCode (code : Nat) : CoreRef :=
  if 393216 ≤ code then .switch ((code - 393216) / 64) ((code - 393216) % 64)
  else if code % 2048 < 1024 then .thread (code / 2048) (code % 64) (code % 1024 / 64)
  else .edge (code / 2048) (code % 1024)

/-- The context of a number. -/
def CtxRef.ofCode (code : Nat) : CtxRef := ⟨.ofCode (code / 16), code % 16⟩

/-- A pipe's number in the tables. -/
def PipeRef.code (p : PipeRef) : Nat := p.dev * 256 + p.p

/-- An engine's number, in the order of R199 and R330. -/
def Engine.idx : Engine → Nat
  | .seq => 0
  | .lde => 1
  | .mxe => 2
  | .vxe => 3
  | .cpe => 4

/-- The five engines in order. -/
def engines : List Engine := [.seq, .lde, .mxe, .vxe, .cpe]

/-- A stream's number in the tables. -/
def StreamRef.code (x : StreamRef) : Nat := x.pipe.code * 8 + x.eng.idx

/-- The pipe of a number. -/
def PipeRef.ofCode (code : Nat) : PipeRef := ⟨code / 256, code % 256⟩

/-- A partition's number in the tables. -/
def PartRef.code (k : PartRef) : Nat := k.dev * 8 + k.k

/-- The partition of a number. -/
def PartRef.ofCode (code : Nat) : PartRef := ⟨code / 8, code % 8⟩

/-- The device on which a core lies; a switch core lies on none. -/
def CoreRef.dev : CoreRef → Option Nat
  | .thread d _ _ => some d
  | .edge d _ => some d
  | .switch _ _ => none

/-- Whether a core is a thread core. -/
def CoreRef.isThread : CoreRef → Bool
  | .thread _ _ _ => true
  | _ => false

/-- The die of a core (R7): x div 32 for a thread core, e div 64 for an edge core. -/
def CoreRef.die : CoreRef → Nat
  | .thread _ x _ => x / 32
  | .edge _ e => e / 64
  | .switch _ _ => 0

/-- The thread cluster of (x, y) and the core's number in it (Table 5 of R7). -/
def clusterOf (x y : Nat) : Nat := y / 8 * 4 + x / 16

/-- The number of core (x, y) in its cluster. -/
def inCluster (x y : Nat) : Nat := y % 8 * 16 + x % 16

/-- Core i of the thread cluster of (x, y). -/
def clusterCore (d x y i : Nat) : CoreRef :=
  let cl := clusterOf x y
  .thread d (cl % 4 * 16 + i % 16) (cl / 4 * 8 + i / 16)

/-- The order in which thread cores, then edge cores, are taken (R176, R240, R340). -/
def CoreRef.order : CoreRef → Nat
  | .thread _ x y => y * 64 + x
  | .edge _ e => 1024 + e
  | .switch k b => 2048 + k * 64 + b

/-- SYS.CORE (Table 8 of R111). -/
def CoreRef.sysCore : CoreRef → Word
  | .thread d x y => BitVec.ofNat 64 (d * 2 ^ 24 + x * 16 + y)
  | .edge d e => BitVec.ofNat 64 (d * 2 ^ 24 + 2 ^ 22 + e * 2 ^ 10)
  | .switch k b => BitVec.ofNat 64 (0xFF * 2 ^ 24 + 2 * 2 ^ 22 + k * 2 ^ 17 + b * 2 ^ 10)

/-- Where a core's pool begins in `pool`. -/
def CoreRef.poolBase (c : CoreRef) : Nat := c.code * 2 ^ 18

/-- The switch of a switch core; else none. -/
def CoreRef.switch? : CoreRef → Option Nat
  | .switch k _ => some k
  | _ => none

end Sys2Proof

namespace Sys2Proof.Machine

open Host (Outcome)

/-- What a meaning answers. -/
abbrev Out := Outcome State Fault Refusal

/-! ## Bits -/

/-- The n bits of a word from bit lo upward, as a number. -/
def wbits (w : Word) (lo n : Nat) : Nat := w.toNat / 2 ^ lo % 2 ^ n

/-- Bit k of a number. -/
def bit (n k : Nat) : Bool := n / 2 ^ k % 2 == 1

/-- A number as a word. -/
def toWord (n : Nat) : Word := BitVec.ofNat 64 n

/-- The two's-complement value of the low n bits. -/
def signed (n v : Nat) : Int :=
  let m := v % 2 ^ n
  if m < 2 ^ (n - 1) then (m : Int) else (m : Int) - 2 ^ n

/-- An integer as a word, modulo 2^64. -/
def ofInt (i : Int) : Word := BitVec.ofInt 64 i

/-- Rounds up to a multiple. -/
def ceilDiv (a b : Nat) : Nat := (a + b - 1) / b

/-- Removes every occurrence. -/
def without (l : List Nat) (n : Nat) : List Nat := l.filter fun k => !(k == n)

/-! ## Access to the tables -/

/-- A core at reset. The firmware keeps BND.W at 0xA00 and BND.S = BND.L at 256 KiB on edge and switch cores
(R111). -/
def Core.resetOf : CoreRef → Core
  | .thread _ _ _ => Core.reset
  | .edge _ _ => { Core.reset with bndW := 5, bndS := 512, bndL := 512 }
  | .switch _ _ => { Core.reset with bndW := 5, bndS := 512, bndL := 512 }

/-- A core. -/
def State.core (s : State) (c : CoreRef) : Core := (s.cores.get? c.code).getD (Core.resetOf c)

/-- Replaces a core. -/
def State.setCore (s : State) (c : CoreRef) (v : Core) : State := { s with cores := s.cores.put c.code v }

/-- Changes a core. -/
def State.modCore (s : State) (c : CoreRef) (f : Core → Core) : State := s.setCore c (f (s.core c))

/-- A context. -/
def State.ctx (s : State) (t : CtxRef) : Ctx := (s.ctxs.get? t.code).getD Ctx.reset

/-- Replaces a context. -/
def State.setCtx (s : State) (t : CtxRef) (v : Ctx) : State := { s with ctxs := s.ctxs.put t.code v }

/-- Changes a context. -/
def State.modCtx (s : State) (t : CtxRef) (f : Ctx → Ctx) : State := s.setCtx t (f (s.ctx t))

/-- The context that acts. -/
def State.me (s : State) : Ctx := s.ctx s.tf

/-- A device. -/
def State.dev (s : State) (d : Nat) : Device := (s.devs.get? d).getD Device.reset

/-- Changes a device. -/
def State.modDev (s : State) (d : Nat) (f : Device → Device) : State :=
  { s with devs := s.devs.put d (f (s.dev d)) }

/-- A partition. -/
def State.part (s : State) (k : PartRef) : Partition := (s.parts.get? k.code).getD Partition.reset

/-- Changes a partition. -/
def State.modPart (s : State) (k : PartRef) (f : Partition → Partition) : State :=
  { s with parts := s.parts.put k.code (f (s.part k)) }

/-- A pipe. -/
def State.pipe (s : State) (p : PipeRef) : Pipe := (s.pipes.get? p.code).getD Pipe.reset

/-- Changes a pipe. -/
def State.modPipe (s : State) (p : PipeRef) (f : Pipe → Pipe) : State :=
  { s with pipes := s.pipes.put p.code (f (s.pipe p)) }

/-- A stream. -/
def State.stream (s : State) (x : StreamRef) : Stream := (s.streams.get? x.code).getD Stream.reset

/-- Changes a stream. -/
def State.modStream (s : State) (x : StreamRef) (f : Stream → Stream) : State :=
  { s with streams := s.streams.put x.code (f (s.stream x)) }

/-- A command queue. -/
def State.queue (s : State) (d q : Nat) : Queue := (s.queues.get? (d * 64 + q)).getD Queue.reset

/-- Changes a command queue. -/
def State.modQueue (s : State) (d q : Nat) (f : Queue → Queue) : State :=
  { s with queues := s.queues.put (d * 64 + q) (f (s.queue d q)) }

/-- A Soaro port. -/
def State.port (s : State) (d k : Nat) : Port := (s.ports.get? (d * 24 + k)).getD Port.reset

/-- Changes a Soaro port. -/
def State.modPort (s : State) (d k : Nat) (f : Port → Port) : State :=
  { s with ports := s.ports.put (d * 24 + k) (f (s.port d k)) }

/-- A switch. -/
def State.switch (s : State) (k : Nat) : Switch := (s.switches.get? k).getD Switch.reset

/-- Changes a switch. -/
def State.modSwitch (s : State) (k : Nat) (f : Switch → Switch) : State :=
  { s with switches := s.switches.put k (f (s.switch k)) }

/-- The incarnation of pair (2j, 2j + 1) (R285). -/
def State.pairInc (s : State) (j : Nat) : Nat := (s.pairs.get? j).getD 1

/-- Changes a thread job, if there is one of that number. -/
def State.modTJob (s : State) (j : Nat) (f : TJob → TJob) : State :=
  match s.tjobs.get? j with
  | some v => { s with tjobs := s.tjobs.put j (f v) }
  | none => s

/-- Changes a timed job, if there is one of that number. -/
def State.modJob (s : State) (j : Nat) (f : Job → Job) : State :=
  match s.jobs.get? j with
  | some v => { s with jobs := s.jobs.put j (f v) }
  | none => s

/-! ## Free choices and events in flight -/

/-- A free choice below n (or 0 when n = 0), and the state after it is taken. [log 4] -/
def State.pick (s : State) (n : Nat) : Nat × State :=
  (Config.choice s.fresh % n, { s with fresh := s.fresh + 1 })

/-- Puts an event into flight, due in wall cycle t. -/
def State.dueAt (s : State) (t : Nat) (i : Instr) (o : Operand) : State :=
  { s with agenda := s.agenda ++ [(t, i, o)] }

/-- Puts an event into flight, due within b cycles. -/
def State.within (s : State) (b : Nat) (i : Instr) (o : Operand) : State :=
  let (k, s1) := s.pick b
  s1.dueAt (s1.wcc + 1 + k) i o

/-- Puts an event into flight, due from lo to hi cycles from now. -/
def State.between (s : State) (lo hi : Nat) (i : Instr) (o : Operand) : State :=
  let (k, s1) := s.pick (hi + 1 - lo)
  s1.dueAt (s1.wcc + lo + k) i o

/-- Puts an event into flight that the spec gives no bound. -/
def State.later (s : State) (i : Instr) (o : Operand) : State :=
  { s with fresh := s.fresh + 1, agenda := s.agenda ++ [(s.wcc + 1 + Config.choice s.fresh, i, o)] }

/-- A fresh number. -/
def State.number (s : State) : Nat × State := (s.serial, { s with serial := s.serial + 1 })

/-! ## Registers, predicates, the trap frame (R20, R37) -/

/-- Where a context's workspace begins in `pool`. -/
def State.workspace (s : State) (t : CtxRef) : Nat := t.core.poolBase + (s.ctx t).wp.toNat

/-- Reads register r of a context. -/
def State.regOf (s : State) (t : CtxRef) (r : Nat) : Word := toWord (s.pool.num (s.workspace t + 8 * r) 8)

/-- Writes register r of a context. -/
def State.setRegOf (s : State) (t : CtxRef) (r : Nat) (v : Word) : State :=
  { s with pool := s.pool.setNum (s.workspace t + 8 * r) 8 v.toNat }

/-- Reads a register of the acting context: an instruction that goes on after a wait has read it at issue (R36). -/
def State.reg (s : State) (r : Reg) : Word :=
  match s.me.held with
  | some regs => (regs[r.toNat]?).getD 0
  | none => s.regOf s.tf r.toNat

/-- Writes a register of the acting context. -/
def State.setReg (s : State) (r : Reg) (v : Word) : State := s.setRegOf s.tf r.toNat v

/-- The predicate byte of a context, with p0 read as 1 (R20, R48). -/
def State.predsOf (s : State) (t : CtxRef) : Byte := s.pool.get (s.workspace t + 128) ||| 1

/-- Predicate p of the acting context. -/
def State.pred (s : State) (p : BitVec 3) : Bool := (s.predsOf s.tf).getLsbD p.toNat

/-- Writes the predicate word of a context: bits [63:8] are written zero (R48). -/
def State.setPredsOf (s : State) (t : CtxRef) (v : Byte) : State :=
  { s with pool := s.pool.setNum (s.workspace t + 128) 8 (v ||| 1).toNat }

/-- Writes predicate p of the acting context; a write to p0 is ignored (R20). -/
def State.setPred (s : State) (p : BitVec 3) (v : Bool) : State :=
  if p = 0 then s
  else
    let m : Byte := 1#8 <<< p.toNat
    let old := s.predsOf s.tf
    s.setPredsOf s.tf (if v then old ||| m else old &&& ~~~m)

/-- Whether a guard holds (Table 4 of R22, R23). -/
def State.guardHolds (s : State) (g : Guard) : Bool := s.pred g.gp == (g.gs == 0)

/-! ## The rotation (R236, R237) -/

/-- Puts a live context into the rotation at its tail, in the next cycle (R236). -/
def State.makeReady (s : State) (t : CtxRef) : State :=
  if (s.ctx t).mode = .ready then s
  else
    let s1 := s.modCtx t fun c => { c with mode := .ready, held := none, readyAt := s.wcc + 1 }
    s1.modCore t.core fun c => { c with rot := without c.rot t.n ++ [t.n] }

/-- A context leaves the rotation: nothing a YIELD holds waits for it any longer (R237). -/
def Core.leaveRotation (c : Core) (n : Nat) : Core :=
  { c with rot := without c.rot n, held := c.held.map fun h => (h.1, without h.2 n) }

/-- A context leaves the core: what a YIELD of its own holds is gone as well. -/
def Core.forget (c : Core) (n : Nat) : Core :=
  { c.leaveRotation n with held := (c.leaveRotation n).held.filter fun h => !(h.1 == n) }

/-- Takes a context out of the rotation to wait. -/
def State.park (s : State) (t : CtxRef) (w : Wait) : State :=
  let s1 := s.modCtx t fun c => { c with mode := .waiting w }
  s1.modCore t.core fun c => c.leaveRotation t.n

/-- The acting context waits, and its instruction goes on afterwards with the guard and the operands it read at issue (R23,
R36). -/
def State.pause (s : State) (w : Wait) : State :=
  let regs := s.me.held.getD ((List.range 16).map fun r => s.regOf s.tf r)
  (s.modCtx s.tf fun c => { c with held := some regs }).park s.tf w

/-- Lets a waiting context's instruction go on. -/
def State.resume (s : State) (t : CtxRef) : State := s.modCtx t fun c => { c with mode := .resume }

/-- The acting context's instruction is over: the PC moves past its bytes, and the context is ready. -/
def State.retire (s : State) (len : Nat) : State :=
  (s.modCtx s.tf fun c =>
    { c with pc := c.pc + BitVec.ofNat 64 len, cur := none, phase := 0, held := none, asked := none }).makeReady s.tf

/-- The acting context's instruction is over and the next one is at `pc`. -/
def State.jump (s : State) (pc : Word) : State :=
  (s.modCtx s.tf fun c => { c with pc := pc, cur := none, phase := 0, held := none, asked := none }).makeReady s.tf

/-- The acting context forfeits n of its turns (R38). -/
def State.forfeit (s : State) (n : Nat) : State :=
  if n = 0 then s
  else
    (s.modCtx s.tf fun c => { c with last := some (s.wcc + 4 * n) }).park s.tf (.until (s.wcc + 4 * n) false)

/-- Runs a meaning under a guard: a false guard writes nothing (R23). The guard is read at issue: an instruction that goes on
after a wait is past it. -/
def guarded (g : Guard) (len : Nat) (s : State) (k : State → Out) : Out :=
  if s.me.held.isSome || s.guardHolds g then k s else .next (s.retire len)

/-! ## Device memory, slices and L1 -/

/-- The register of the domain table that a device holds, or 0 (R307). -/
def Device.domBase (d : Device) (k : Nat) : Word := (d.domB.get? k).getD 0

/-- SYS.DOMTAB.Lk. -/
def Device.domLimit (d : Device) (k : Nat) : Word := (d.domL.get? k).getD 0

/-- SYS.HMASKi: at reset bit 7 + i is set (R307). -/
def Device.mask (d : Device) (i : Nat) : Word := (d.hmask.get? i).getD (toWord (2 ^ (7 + i)))

/-- The parity of a number's set bits below 2^n. -/
def parity : Nat → Nat → Bool
  | 0, _ => false
  | n + 1, v => Bool.xor (bit v n) (parity n v)

/-- The domain of a physical address: LOGN and FIRST of the lowest-numbered entry that matches from k on (R307). -/
def Device.domainFrom (d : Device) (a : Nat) : Nat → Nat → Nat × Nat
  | 0, _ => (7, 0)
  | n + 1, k =>
    let b := d.domBase k
    if wbits b 63 1 = 1 ∧ wbits b 21 18 ≤ a / 2 ^ 21 ∧ a / 2 ^ 21 < wbits (d.domLimit k) 21 18 then
      (wbits b 56 3, wbits b 49 7)
    else d.domainFrom a n (k + 1)

/-- Slice index bits i − 1 down to 0 (R307). -/
def Device.sliceIndex (d : Device) (a : Nat) : Nat → Nat
  | 0 => 0
  | i + 1 => d.sliceIndex a i + (if parity 39 ((toWord a &&& d.mask i).toNat) then 2 ^ i else 0)

/-- The home slice of a physical address (R307). -/
def Device.home (d : Device) (a : Nat) : Nat :=
  let (n, f) := d.domainFrom a 16 0
  f + d.sliceIndex a n

/-- Where device d's physical address a stands in `dram`. -/
def dramAddr (d a : Nat) : Nat := d * 2 ^ 39 + a

/-- Reads n bytes of device memory as the home slices serve them. -/
def State.dramGet (s : State) (d a n : Nat) : List Byte := s.dram.getBytes (dramAddr d a) n

/-- Reads an n-byte number of device memory. -/
def State.dramNum (s : State) (d a n : Nat) : Nat := s.dram.num (dramAddr d a) n

/-- Lines that a slice holds: 2 MiB of 128 bytes (R363). -/
def sliceLines : Nat := 16384

/-- The dirty lines when a slice that is full of them has written one back, as it does before it takes another (R363). -/
def State.madeRoom (s : State) (d home : Nat) : Table DirtyLine :=
  let held := s.dirty.filter fun e => e.2.home == home && e.1 / 2 ^ 32 == d
  if held.length < sliceLines then s.dirty
  else
    match held[Config.victim s.wcc home % held.length]? with
    | some e => s.dirty.drop e.1
    | none => s.dirty

/-- Marks the line of physical address a dirty in its home slice, keeping what HBM holds of it: for a line that was replaced
since it became dirty, what it was then (R363). -/
def State.markDirty (s : State) (d a : Nat) : State :=
  let line := dramAddr d a / 128
  let home := (s.dev d).home a
  let fresh : DirtyLine := { home := home, hbm := s.dram.getBytes (line * 128) 128 }
  { s with dirty := match s.dirty.get? line with
      | some _ => if Config.replaced s.wcc line then s.dirty.put line fresh else s.dirty
      | none => (s.madeRoom d home).put line fresh }

/-- Performs a write of bytes at the home slices of the lines they meet: every line that holds one of them is dirty. -/
def State.dramSet (s : State) (d a : Nat) (bs : List Byte) : State :=
  let n := if bs.length = 0 then 0 else (a % 128 + bs.length + 127) / 128
  let s1 := (List.range n).foldl (fun st i => st.markDirty d (a / 128 * 128 + 128 * i)) s
  { s1 with dram := s1.dram.setBytes (dramAddr d a) bs }

/-- Performs a write of an n-byte number. -/
def State.dramSetNum (s : State) (d a n v : Nat) : State := s.dramSet d a (leBytes n v)

/-- Writes a dirty line back to HBM (CWB, replacement: R81, R363). `line` counts 128-byte lines of `dram`. -/
def State.writeBack (s : State) (line : Nat) : State := { s with dirty := s.dirty.drop line }

/-- Drops a line: dirty data that was not replaced before is discarded, and HBM's contents stand (CINV: R81, R363). -/
def State.discard (s : State) (line : Nat) : State :=
  { s with
    dirty := s.dirty.drop line
    dram := match s.dirty.get? line with
      | none => s.dram
      | some v => if Config.replaced s.wcc line then s.dram else s.dram.setBytes (line * 128) v.hbm }

/-- Invalidates a core's L1 by generation (R79, R258). -/
def State.l1Clear (s : State) (c : CoreRef) : State := s.modCore c fun v => { v with l1 := [] }

/-- Bytes of a core's L1 copy, when the line is present; an aligned access of at most 8 bytes lies in one line. -/
def Core.l1Get (c : Core) (va n : Nat) : Option (List Byte) :=
  match c.l1.find? fun l => l.line == va / 128 with
  | some l => some ((l.bytes.drop (va % 128)).take n)
  | none => none

/-- Writes bytes into a list from position k on. -/
def overwrite (l : List Byte) (k : Nat) (bs : List Byte) : List Byte :=
  l.take k ++ bs.take (l.length - k) ++ l.drop (k + bs.length)

/-- A performed store updates the core's own copy of the line, if one is present (R258). -/
def Core.l1Update (c : Core) (va : Nat) (bs : List Byte) : Core :=
  { c with l1 := c.l1.map fun l =>
      if l.line == va / 128 then { l with bytes := overwrite l.bytes (va % 128) bs } else l }

/-- How many lines a thread core's L1 holds (Table 9 of R111). -/
def Core.l1Lines (c : Core) : Nat := (c.bndL.toNat - c.bndS.toNat) * 4

/-! ## Translation (R315 to R319) -/

/-- Device memory ends here (Table 6 of R8). -/
def deviceEnd : Nat := 0x00E0000000000000

/-- What an access does to a page (R317). -/
inductive Use where
  | read | write | fetch
  deriving DecidableEq, Repr

/-- Cause codes of Table 7 of R326 that translation gives. -/
def causeAddress : Nat := 3
/-- protection. -/
def causeProtection : Nat := 4

/-- A page-table walk from level `lvl`, the table at physical address `tab`: the entry that maps va, or none (R316,
R317). -/
def State.walkFrom (s : State) (d va : Nat) (space : BitVec 16) (masters : BitVec 6) :
    List (Nat × Nat × Nat) → Nat → Option TlbEntry
  | [], _ => none
  | (lo, n, align) :: rest, tab =>
    let e := toWord (s.dramNum d (tab + 8 * (va / 2 ^ lo % 2 ^ n)) 8)
    let leaf := wbits e 62 1 = 1
    let pa := wbits e 8 31 * 256
    let first := lo = 43
    let last := rest.isEmpty
    if wbits e 63 1 = 0 ∨ wbits e 39 20 ≠ 0 ∨ wbits e 0 8 ≠ 0 then none
    else if leaf then
      if first ∨ pa % 2 ^ lo ≠ 0 then none
      else some { station := va / 2 ^ 16 % 128, space := space, base := va / 2 ^ lo * 2 ^ lo, size := 2 ^ lo, pa := pa, wr := wbits e 61 1 = 1,
                  ex := wbits e 60 1 = 1, pv := wbits e 59 1 = 1, masters := masters }
    else if last ∨ pa % align ≠ 0 then none
    else s.walkFrom d va space masters rest pa

/-- The levels of Table 2 of R316: index position and width, and the alignment of the table below. -/
def walkLevels : List (Nat × Nat × Nat) := [(43, 13, 2 ^ 16), (30, 13, 2 ^ 12), (21, 9, 256), (16, 5, 1)]

/-- The leaf that maps an address of a space on a device, walked now (R315 to R317). -/
def State.walk (s : State) (d : Nat) (space : BitVec 16) (va : Nat) : Option TlbEntry :=
  let base := (s.dev d).config.spbase + 16 * space.toNat
  let w0 := toWord (s.dramNum d base 8)
  let w1 := toWord (s.dramNum d (base + 8) 8)
  if wbits w0 63 1 = 0 ∨ wbits w0 39 24 ≠ 0 ∨ wbits w0 0 16 ≠ 0 ∨ wbits w1 6 58 ≠ 0 then none
  else s.walkFrom d va space (BitVec.ofNat 6 (wbits w1 0 6)) walkLevels (wbits w0 16 23 * 2 ^ 16)

/-- The leaf a station holds for an address (R318). -/
def Device.cached (d : Device) (space : BitVec 16) (va : Nat) : Option TlbEntry :=
  d.tlb.find? fun e => e.station == va / 2 ^ 16 % 128 && decide (e.space = space) && decide (e.base ≤ va) && decide (va < e.base + e.size)

/-- The leaf that translates an address: a cached one, else the one a walk finds now (R318, R319). -/
def State.leaf (s : State) (d : Nat) (space : BitVec 16) (va : Nat) : Option TlbEntry :=
  match (s.dev d).cached space va with
  | some e => some e
  | none => s.walk d space va

/-- Translates an address for a requester of a master class; the cause on failure (R9, R317, R321). -/
def State.translate (s : State) (d : Nat) (space : BitVec 16) (va : Nat) (use : Use) (cls : Nat) (priv : Bool) :
    Except Nat Nat :=
  if deviceEnd ≤ va then .error causeAddress else
  match s.leaf d space va with
  | none => .error causeAddress
  | some e =>
    if !e.masters.getLsbD cls then .error causeProtection
    else if (use = .write ∧ !e.wr) ∨ (use = .fetch ∧ !e.ex) ∨ (e.pv ∧ !(cls = 0 ∧ priv)) then .error causeProtection
    else .ok (e.pa + (va - e.base))

/-- A request that misses its station's cache has the leaf cached when its walk completes (R318). -/
def State.noteWalk (s : State) (d : Nat) (space : BitVec 16) (va : Nat) : State :=
  match (s.dev d).cached space va with
  | some _ => s
  | none =>
    let (k, s1) := s.pick 4096
    s1.later .translationWalk (.walk d space.toNat va k)

/-- Whether every page of [va, va + n) translates for a requester: 64 KiB pages, the smallest, are tested. -/
def State.rangeOk (s : State) (d : Nat) (space : BitVec 16) (va : Nat) (use : Use) (cls : Nat) (priv : Bool) :
    Nat → Bool
  | 0 => true
  | n + 1 =>
    match s.translate d space va use cls priv with
    | .error _ => false
    | .ok _ => s.rangeOk d space ((va / 65536 + 1) * 65536) use cls priv n

/-- The pages of 64 KiB that [va, va + n) meets. -/
def pagesOf (va n : Nat) : Nat := if n = 0 then 0 else (va + n - 1) / 65536 - va / 65536 + 1

/-- Reads n bytes at virtual addresses, each page translated; none when one fails. -/
def State.virtGet (s : State) (d : Nat) (space : BitVec 16) (cls : Nat) (va : Nat) : Nat → Option (List Byte)
  | 0 => some []
  | n + 1 =>
    match s.translate d space va .read cls false with
    | .error _ => none
    | .ok pa => (s.virtGet d space cls (va + 1) n).map fun bs => s.dram.get (dramAddr d pa) :: bs

/-- Reads an 8-byte word at an aligned virtual address; none when translation fails. -/
def State.virtWord (s : State) (d : Nat) (space : BitVec 16) (cls : Nat) (priv : Bool) (va : Nat) : Option Word :=
  match s.translate d space va .read cls priv with
  | .error _ => none
  | .ok pa => some (toWord (s.dramNum d pa 8))

/-- Stores a number of n bytes at an aligned virtual address; none when translation fails. -/
def State.virtStore (s : State) (d : Nat) (space : BitVec 16) (cls : Nat) (va n v : Nat) : Option State :=
  match s.translate d space va .write cls false with
  | .error _ => none
  | .ok pa => some (s.dramSetNum d pa n v)

/-! ## Address classes (R8, R73, R74) -/

/-- Where an access goes (Table 1 of R73). -/
inductive Place where
  /-- A pool: its core and the offset. -/
  | pool (c : CoreRef) (off : Nat)
  /-- Device memory of a device; `remote` through a window (R324), `ro` when that window is read-only. -/
  | dram (d : Nat) (remote ro : Bool)
  /-- A bank of the tier: switch field, incarnation, offset. -/
  | tier (k inc off : Nat)
  /-- A buffer of a pipe, or its post-slot range when `buf` is none. -/
  | window (p : PipeRef) (buf : Option Buf) (off : Nat)
  /-- A trap: cause code. -/
  | bad (cause : Nat)
  deriving DecidableEq, Repr

/-- Whether a virtual address is device memory (R8). -/
def isDeviceMemory (va : Word) : Bool := decide (va.toNat < deviceEnd)

/-- Whether a core is in the Phoub column of its device (R232, R355). -/
def State.inColumn (s : State) (c : CoreRef) : Bool :=
  match c with
  | .thread d x _ =>
    let g := (s.dev d).config
    x == g.colx0 || (g.colx1 != 0xFF && x == g.colx1)
  | _ => false

/-- The device whose memory a core's requests reach: its own, and for a guest on a switch core its home's. -/
def State.memDev (s : State) (t : CtxRef) : Nat :=
  match t.core.dev with
  | some d => d
  | none =>
    match (s.ctx t).home with
    | some h => h.core.dev.getD 0
    | none => 0

/-- The core that the self alias names: the current core, or for a guest its home core (R74). -/
def State.aliasCore (s : State) (t : CtxRef) : CoreRef :=
  match (s.ctx t).home with
  | some h => h.core
  | none => t.core

/-- The four windows of a core (R323). -/
def Core.wins (c : Core) : List Word := [c.win0, c.win1, c.win2, c.win3]

/-- Whether an enabled window covers an address (R323, R324). -/
def windowCovers (w va : Word) : Bool :=
  wbits w 63 1 == 1 && decide (wbits w 24 26 * 2 ^ 30 ≤ va.toNat)
    && decide (va.toNat < wbits w 24 26 * 2 ^ 30 + 2 ^ (30 + wbits w 50 4))

/-- A pool access of the core that the self alias names (Table 1 of R73). -/
def State.ownPool (s : State) (c : CoreRef) (off : Nat) : Place :=
  if off < (s.core c).bndS.toNat * 512 then .pool c off else .bad 5

/-- Classes an address (Table 1 of R73) for a requester on a core, whose aliases are resolved at core `self` and whose
device memory is that of device `dev`: address-fault and pool-range, the checks of R74 that need no size. -/
def State.classifyAt (s : State) (core self : CoreRef) (dev : Nat) (va : Word) : Place :=
  let a := va.toNat
  let top := wbits va 48 8
  if wbits va 56 8 ≠ 0 then .bad 3
  else if a < deviceEnd then
    match (s.core core).wins.find? fun w => windowCovers w va with
    | some w => .dram (wbits w 54 8) true (wbits w 62 1 == 1)
    | none => .dram (dev) false false
  else if top < 0xF0 then
    if wbits va 47 5 ≤ 23 ∧ wbits va 38 3 = 0 then .tier (wbits va 47 5) (wbits va 41 6) (wbits va 0 38) else .bad 3
  else if top < 0xFD then .bad 3
  else if top = 0xFD then
    let p := wbits va 32 16
    let off := wbits va 0 30
    if 192 ≤ p then .bad 3
    else
      let pr : PipeRef := ⟨dev, p⟩
      match wbits va 30 2 with
      | 0 => if off < 0x180000 then .window pr (some .w) off else .bad 3
      | 1 => if off < 0x180000 then .window pr (some .a) off else .bad 3
      | 2 => if off < 0x400000 then .window pr (some .c) off else .bad 3
      | _ => .window pr none off
  else if top = 0xFE then
    if wbits va 0 48 < 2 ^ 18 then s.ownPool (self) (wbits va 0 48) else .bad 3
  else
    let i := wbits va 20 28
    let off := wbits va 0 20
    if 128 ≤ i ∨ 2 ^ 18 ≤ off then .bad 3
    else
      match self with
      | .thread d x y =>
        let c := clusterCore d x y i
        if c = .thread d x y then s.ownPool c off
        else if (s.core c).bndW.toNat * 512 ≤ off ∧ off < (s.core c).bndS.toNat * 512 then .pool c off
        else .bad 5
      | _ => .bad 3

/-- Classes an address for a context (R73, R74). -/
def State.classify (s : State) (t : CtxRef) (va : Word) : Place :=
  s.classifyAt t.core (s.aliasCore t) (s.memDev t) va

/-! ## Fetch -/

/-- The instruction byte at an address: a byte of device memory that translates for a fetch, or the cause (R65, R317). A
context, home or guest, fetches under its own space id. -/
def State.fetchByte (s : State) (t : CtxRef) (va : Nat) : Except Nat Byte :=
  match s.translate (s.memDev t) (s.ctx t).space va .fetch 0 (s.ctx t).priv with
  | .ok pa => .ok (s.dram.get (dramAddr (s.memDev t) pa))
  | .error c => .error c

/-- Fetches n bytes; the cause of the first that fails. -/
def State.fetchBytes (s : State) (t : CtxRef) (va : Nat) : Nat → Except Nat (List Byte)
  | 0 => .ok []
  | n + 1 =>
    match s.fetchByte t va with
    | .error c => .error c
    | .ok b => (s.fetchBytes t (va + 1) n).map fun bs => b :: bs

/-- The bytes of the instruction at a context's PC: 4, or 8 for a prefix pair (R22, R26). A prefix with a nonzero MBZ bit is
illegal whatever follows it (R24). -/
def State.codeBytes (s : State) (t : CtxRef) : Except Nat (List Byte) :=
  match s.fetchBytes t (s.ctx t).pc.toNat 4 with
  | .error c => .error c
  | .ok bs =>
    if leNat bs / 2 ^ 26 % 64 = 0x3F ∧ leNat bs / 2 ^ 18 % 256 = 0 then s.fetchBytes t (s.ctx t).pc.toNat 8 else .ok bs

/-! ## Follow groups (R68, R69) -/

/-- The followers of context n of a core. -/
def State.followers (s : State) (c : CoreRef) (n : Nat) : List Nat :=
  (List.range 16).filter fun k =>
    decide ((s.ctx ⟨c, k⟩).leader = some n) && decide ((s.ctx ⟨c, k⟩).mode ≠ .free)

/-- The home route of a context: its home when a guest, itself otherwise. -/
def State.homeOf (s : State) (t : CtxRef) : CtxRef := (s.ctx t).home.getD t

/-- The rejoin record of a context's thread, which its home context keeps wherever the thread runs (R68, R69). -/
def State.rejoinOf (s : State) (t : CtxRef) : Option CtxRef := (s.ctx (s.homeOf t)).rejoin

/-- Sets the rejoin record of a context's thread. -/
def State.setRejoin (s : State) (t : CtxRef) (r : Option CtxRef) : State :=
  s.modCtx (s.homeOf t) fun c => { c with rejoin := r }

/-- A follower leaves its group and keeps a rejoin record naming the leader (Table 10 of R68). -/
def State.leaveGroup (s : State) (t : CtxRef) : State :=
  match (s.ctx t).leader with
  | none => s
  | some l => (s.modCtx t fun c => { c with leader := none }).setRejoin t (some (s.homeOf ⟨t.core, l⟩))

/-- A leader's group dissolves: the followers go on alone, and every rejoin record that names the leader is cleared
(R68, R69). -/
def State.dissolveGroup (s : State) (t : CtxRef) : State :=
  let h := s.homeOf t
  let s1 := (s.followers t.core t.n).foldl
    (fun st k => (st.modCtx ⟨t.core, k⟩ fun c => { c with leader := none }).setRejoin ⟨t.core, k⟩ none) s
  { s1 with ctxs := s1.ctxs.map fun e => if e.2.rejoin = some h then (e.1, { e.2 with rejoin := none }) else e }

/-! ## Halting (R70, R71) -/

/-- Message classes of a core that are bound to context n become unbound (R70, R97). Messages that stand in their queues stay
there for the next context that binds the class. [log 78] -/
def Core.unbind (c : Core) (n : Nat) : Core :=
  { c with classes := c.classes.map fun e =>
      match e.2.bound with
      | some (k, _) => if k = n then (e.1, { e.2 with bound := none, pending := false }) else e
      | none => e }

/-- Whether a core has a live context. -/
def State.coreLive (s : State) (c : CoreRef) : Bool :=
  (List.range 16).any fun k => decide ((s.ctx ⟨c, k⟩).mode ≠ .free)

/-- Powers a core's pool down: its contents are lost, and later read zero (R70). -/
def State.powerDown (s : State) (c : CoreRef) : State :=
  { (s.modCore c fun v => { v with powered := false, l1 := [] }) with pool := s.pool.clear c.poolBase (2 ^ 18) }

/-- Powers a core's pool up: banks that were down read zero (R70, R234). -/
def State.powerUp (s : State) (c : CoreRef) : State := s.modCore c fun v => { v with powered := true }

/-- A context goes back to the free list; its workspace keeps its words until the pool powers down (R70). -/
def State.release (s : State) (t : CtxRef) : State :=
  let s1 := (s.dissolveGroup t).leaveGroup t
  let s2 := s1.modCore t.core fun c => (c.unbind t.n).forget t.n
  let s3 := s2.setCtx t Ctx.reset
  if !s3.coreLive t.core ∧ (s3.core t.core).retain = 0 then s3.powerDown t.core else s3

/-- A context halts; a guest's home context is freed at the same moment (R70, R246). -/
def State.haltCtx (s : State) (t : CtxRef) : State :=
  match (s.ctx t).home with
  | none => s.release t
  | some h => (s.release t).release h

/-! ## Traps (R108, R109, R327, R328) -/

/-- The cause word (R108). -/
def causeWord (priv : Bool) (cause detail : Nat) : Word :=
  toWord ((if priv then 2 ^ 63 else 0) + cause % 65536 * 65536 + detail % 65536)

/-- Writes the trap frame at WP + 136, 144 and 152 (R37). -/
def State.writeFrame (s : State) (t : CtxRef) (pc cause addr : Word) : State :=
  let w := s.workspace t
  { s with pool := ((s.pool.setNum (w + 136) 8 pc.toNat).setNum (w + 144) 8 cause.toNat).setNum (w + 152) 8 addr.toNat }

/-- A queue freezes with a cause (R349). One that is not running keeps its cause, and meets the new one when it runs
again. -/
def State.freezeQueue (s : State) (d q cause : Nat) (culprit : Operand) : State :=
  s.modQueue d q fun v =>
    if v.state = 0 then { v with state := 1, cause := cause, culprit := culprit }
    else { v with pending := v.pending ++ [(cause, culprit)] }

/-- A double fault: the context halts without a second frame, and its thread job's queue freezes (R328). -/
def State.doubleFault (s : State) (t : CtxRef) : State :=
  let j := (s.ctx t).tjob
  let s1 := s.haltCtx t
  match j with
  | none => s1
  | some j =>
    match s1.tjobs.get? j with
    | none => s1
    | some v =>
      let s2 := s1.modTJob j fun u => { u with state := .doubleFault }
      s2.freezeQueue v.dev v.queue 7 (.tjob j)

/-- Trap entry at home (R327): the frame, the privilege bit, the PC at SYS.TVEC, two forfeited turns. A fetch at
SYS.TVEC that faults is a double fault (R328). -/
def State.enterTrap (s : State) (t : CtxRef) (pc : Word) (i : TrapInfo) : State :=
  let c := s.ctx t
  let s1 := s.writeFrame t pc (causeWord c.priv i.cause i.detail) i.addr
  let s2 := s1.modCtx t fun v =>
    { v with
      priv := true, pc := v.tvec, cur := none, phase := 0, held := none, asked := none, last := some (s.wcc + 8)
      suspended := false }
  match s2.fetchBytes t c.tvec.toNat 4 with
  | .error _ => s2.doubleFault t
  | .ok _ => s2.park t (.until (s.wcc + 8) false)

/-- The thread that a context runs, as a caravan carries it, to go on at `pc` (R92). -/
def State.traveller (s : State) (t : CtxRef) (pc : Word) : Traveller :=
  { pc := pc, regs := (List.range 16).map fun r => s.regOf t r, pred := s.predsOf t, priv := (s.ctx t).priv,
    space := (s.ctx t).space, home := s.homeOf t }

/-- Whether a context's departure can take place: its store queue is empty, and every follower of it is at rest with
an empty store queue (R69, R92). -/
def State.canDepart (s : State) (t : CtxRef) : Bool :=
  decide ((s.ctx t).stores = []) && (s.followers t.core t.n).all fun k =>
    let f := s.ctx ⟨t.core, k⟩
    decide (f.stores = []) && (decide (f.mode = .ready) || decide (f.mode = .waiting .rest))

/-- Whether the leader of a context waits to depart, so that the context is stopped at its instruction boundary (R69). -/
def State.leaderLeaves (s : State) (t : CtxRef) : Bool :=
  match (s.ctx t).leader with
  | none => false
  | some l =>
    match (s.ctx ⟨t.core, l⟩).mode with
    | .waiting (.depart _) => true
    | _ => false

/-- The bound of a caravan's transit in cycles (Table 6 of R245, R289). -/
def transitBound (src dst : CoreRef) : Nat :=
  match src, dst with
  | .thread d x y, .thread d' x' y' =>
    if d ≠ d' then 600 else if clusterOf x y = clusterOf x' y' then 24
    else if x / 32 = x' / 32 then 60 else 100
  | .switch k _, .switch k' _ => if k = k' then 40 else 300
  | .switch _ _, _ => 300
  | _, .switch _ _ => 300
  | a, b => if a.dev ≠ b.dev then 600 else if a.die = b.die then 60 else 100

/-- Whether a device holds a loss notice for a switch, or has lost its port to it (R286). -/
def State.noticed (s : State) (d k : Nat) : Bool := (s.dev d).lost.contains k || (s.dev d).portLost.contains k

/-- Whether a path alternative is valid: its switch is not lost and its port is up (R296). -/
def State.pathValid (s : State) (d : Nat) (a : Option Nat) : Bool :=
  match a with
  | none => false
  | some k => decide (k < 24) && !s.noticed d k && (s.port d k).up

/-- x + y of a core, for R296; 0 for a core without coordinates. -/
def pathOffset (c : CoreRef) : Nat :=
  match c with
  | .thread _ x y => x + y
  | _ => 0

/-- The switch of alternative a of the path table of device d to device e, if the entry is valid. A table the firmware has not
written holds switches 0 to 3. [log 1] -/
def State.wayAt (s : State) (d e a : Nat) : Option Nat :=
  ((((s.dev d).paths.get? e).getD [some 0, some 1, some 2, some 3])[a]?).join

/-- The path alternative by which a core's packets go from device d to device e: the one its last packet took, first that of
(x + y + DST) mod 4, as long as it is valid, then the next valid one in ascending order (R296). [log 108] -/
def State.way (s : State) (c : CoreRef) (d e : Nat) : Option Nat :=
  let first := ((s.core c).ways.get? (192 * d + e)).getD ((pathOffset c + e) % 4)
  ((List.range 4).map fun i => (first + i) % 4).find? fun a => s.pathValid d (s.wayAt d e a)

/-- The switch by which a core's packets go from device d to device e; none when no alternative is valid (R296). -/
def State.path (s : State) (c : CoreRef) (d e : Nat) : Option Nat := (s.way c d e).bind fun a => s.wayAt d e a

/-- A core sends a packet from device d to device e: the alternative that it takes serves those that follow (R296). -/
def State.useWay (s : State) (c : CoreRef) (d e : Nat) : State :=
  match s.way c d e with
  | some a => if d = e then s else s.modCore c fun v => { v with ways := v.ways.put (192 * d + e) a }
  | none => s

/-- The switch by which packets from one device's core to another device travel, if any (R296). -/
def State.through (s : State) (src dst : CoreRef) : Option Nat :=
  match src.dev, dst.dev with
  | some d, some e => if d = e then none else s.path src d e
  | _, _ => none

/-- Whether a port sends nothing for a space: a nonce counter of its key slot would wrap (R299), or its slot has been zeroed
(R300). -/
def Port.stops (v : Port) (space : BitVec 16) : Bool :=
  v.zeroed.contains space.toNat || v.keys.any fun e => v.stopped.contains e.1 && e.2.spaces.contains space.toNat

/-- Whether the way between two devices carries nothing for a space now: no alternative of the path is valid (R298), its port does
not send (R299), or the slot of one of its ports has been zeroed (R300). -/
def State.wayStops (s : State) (src dst : CoreRef) (space : BitVec 16) : Bool :=
  match src.dev, dst.dev with
  | some d, some e =>
    d != e && (match s.through src dst with
      | some k => (s.port d k).stops space || (s.port e k).zeroed.contains space.toNat
      | none => true)
  | some d, none =>
    match dst.switch? with
    | some k => (s.port d k).stops space
    | none => false
  | none, _ => false

/-- A packet of one device's core leaves for another device's (R296). -/
def State.sendAway (s : State) (src dst : CoreRef) : State :=
  match src.dev, dst.dev with
  | some d, some e => s.useWay src d e
  | _, _ => s

/-- A switch in a caravan's way as it stands now. -/
def State.viaNow (s : State) (pair : Bool) (k : Nat) : Via :=
  { switch := k, pair := pair, inc := if pair then s.pairInc (k / 2) else (s.switch k).inc }

/-- The switches to, from or through which a caravan of a context travels to a core (R94, R284, R286, R296). -/
def State.viaOf (s : State) (t : CtxRef) (dst : CoreRef) (mirrored : Bool) : List Via :=
  (t.core.switch?.toList.map fun k => s.viaNow (s.ctx t).paired k)
    ++ (dst.switch?.toList.map fun k => s.viaNow mirrored k)
    ++ ((s.through t.core dst).toList.map fun k => s.viaNow false k)

/-- What the context a thread leaves becomes: a home context stays allocated and away, a guest's is freed (R92),
and the message classes bound for the guest are unbound. [log 121] -/
def State.vacate (s : State) (t : CtxRef) (addr : Word) : State :=
  match (s.ctx t).home with
  | some _ => (s.setCtx t Ctx.reset).modCore t.core fun c => (c.unbind t.n).forget t.n
  | none =>
    (s.modCtx t fun c =>
      { c with mode := .away, cur := none, phase := 0, held := none, asked := none, leader := none, departure := some ⟨c.pc, addr, c.priv⟩ }).modCore t.core
      fun c => c.forget t.n

/-- Counts a caravan, message or update as sent or received for a thread job (R247). -/
def State.countSent (s : State) (j : Option Nat) : State :=
  match j with
  | none => s
  | some j => s.modTJob j fun v => { v with sent := v.sent + 1 }

/-- Counts a receipt (R247). -/
def State.countRcvd (s : State) (j : Option Nat) : State :=
  match j with
  | none => s
  | some j => s.modTJob j fun v => { v with rcvd := v.rcvd + 1 }

/-- The state of a guest on a pair that the partner holds (R284). -/
def State.heldCopy (s : State) (t : CtxRef) : Traveller := (s.ctx t).copy.getD (s.traveller t (s.ctx t).pc)

/-- The residence on a pair that a caravan of a context leaves, if there is one (R284). -/
def State.originOf (s : State) (t : CtxRef) : Option Origin :=
  if (s.ctx t).paired then
    t.core.switch?.map fun k =>
      { core := t.core, inc := (s.switch k).inc
        held := s.heldCopy t :: (s.followers t.core t.n).map fun n => s.heldCopy ⟨t.core, n⟩ }
  else none

/-- The caravan of a context's thread and its followers, each at its own PC (R69, R92). -/
def State.caravanOf (s : State) (t : CtxRef) (dest : CoreRef) (pc : Word) (mirrored : Bool) (why : Homeward) : Caravan :=
  { lead := s.traveller t pc
    followers := (s.followers t.core t.n).map fun k => s.traveller ⟨t.core, k⟩ (s.ctx ⟨t.core, k⟩).pc
    via := s.viaOf t dest mirrored, mirrored := mirrored, why := why, origin := s.originOf t }

/-- A context and its followers leave their core; each counts as sent (R92, R247). -/
def State.vacateGroup (s : State) (t : CtxRef) (addr : Word) : State :=
  let s1 := (s.leaveGroup t).countSent (s.ctx t).tjob
  ((s.followers t.core t.n).foldl
    (fun st k => (st.countSent (st.ctx ⟨t.core, k⟩).tjob).vacate ⟨t.core, k⟩ 0) s1).vacate t addr

/-- The thread of a guest returns home with its followers, to go on, to trap or to be pre-empted there (R91, R93, R338); the
cycles of R245, forming the caravan among them. [log 79] -/
def State.returnHome (s : State) (t : CtxRef) (pc : Word) (why : Homeward) : State :=
  let dest := (s.homeOf t).core
  ((s.sendAway t.core dest).vacateGroup t 0).between 8 (transitBound t.core dest) .caravanReturnHome
    (.caravan (s.caravanOf t dest pc false why))

/-- The thread of a context departs to a core, to go on at `pc`; `addr` is the address the departure is for (R92, R94). Its
followers travel with it (R69). Admission comes after the 8 cycles that forming the caravan takes, within the bound of R245
and, for a mirrored range, the 200 cycles of the partner's copy (R289). -/
def State.depart (s : State) (t : CtxRef) (dest : CoreRef) (pc addr : Word) (mirrored : Bool) : State :=
  if dest = (s.homeOf t).core ∧ (s.ctx t).home ≠ none then s.returnHome t pc .goOn
  else
    ((s.sendAway t.core dest).vacateGroup t addr).between 8 (transitBound t.core dest + if mirrored then 200 else 0) .caravanAdmission
      (.arrive dest (s.caravanOf t dest pc mirrored .goOn))

/-- Whether a departure that waited can no longer take place: the instruction then tries again, and is refused (R277, R296). -/
def State.cannotGo (s : State) (t : CtxRef) (l : Leaving) : Bool :=
  match l with
  | .home _ _ => false
  | .go dest _ _ _ =>
    match dest.switch?, t.core.dev, dest.dev with
    | some k, _, _ => s.noticed (((s.homeOf t).core.dev).getD 0) k
    | none, some d, some e => d != e && (s.through t.core dest).isNone
    | _, _, _ => false

/-- Whether a departure can take place now: the queues have drained, the followers are at rest, and the way carries packets of the
thread's space (R69, R92, R298 to R300). -/
def State.mayLeave (s : State) (t : CtxRef) (l : Leaving) : Bool :=
  let dest := match l with
    | .go dest _ _ _ => dest
    | .home _ _ => (s.homeOf t).core
  s.canDepart t && !s.wayStops t.core dest (s.ctx t).space

/-- A departure whose drain has ended takes place (R92). -/
def State.leave (s : State) (t : CtxRef) (l : Leaving) : State :=
  match l with
  | .go dest pc addr mirrored => s.depart t dest pc addr mirrored
  | .home pc why => s.returnHome t pc why

/-- The acting context's departure: at once, or when its queues have drained and its followers are at rest (R69, R92). -/
def State.startLeaving (s : State) (l : Leaving) : State :=
  if s.mayLeave s.tf l then s.leave s.tf l else s.pause (.depart l)

/-- The acting context takes a trap at its instruction: at home at once, a guest after its return (R93, R327). -/
def State.trapAt (s : State) (pc : Word) (i : TrapInfo) : State :=
  match (s.ctx s.tf).home with
  | none => s.enterTrap s.tf pc i
  | some _ => s.startLeaving (.home pc (.trap i))

/-- A precise trap: the saved PC is the instruction's own address (R37). -/
def State.trap (s : State) (cause detail : Nat) (addr : Word) : State := s.trapAt s.me.pc ⟨cause, detail, addr⟩

/-- A precise trap as an outcome. -/
def trapOut (s : State) (cause : Nat) (addr : Word) : Out := .next (s.trap cause 0 addr)

/-- illegal-instruction (R24). -/
def illegal (s : State) : Out := trapOut s 1 0

/-- Return from a trap, at home (R109, R327): PC := frame PC, privilege := PPRIV, one forfeited turn. -/
def State.returnFromTrap (s : State) : State :=
  let w := s.workspace s.tf
  let pc := toWord (s.pool.num (w + 136) 8)
  let cause := toWord (s.pool.num (w + 144) 8)
  ((s.modCtx s.tf fun c => { c with priv := wbits cause 63 1 == 1 }).jump pc).forfeit 1

/-- The acting context waits until its store queue is empty, then goes on with k (R79, R80, R92, R261). With `upd` its
thread's SPAWNU updates, which the home context records, must have been applied or dropped too (R267). -/
def whenDrained (s : State) (upd : Bool) (k : State → Out) : Out :=
  if s.me.stores = [] ∧ (upd = false ∨ (s.ctx (s.homeOf s.tf)).updates = []) then k s else .next (s.pause (.drain upd))

/-- The acting context leaves for a core and goes on there at `pc`, once its departure can take place (R69, R92). -/
def migrate (s : State) (dest : CoreRef) (pc addr : Word) (mirrored : Bool) : Out :=
  .next (s.startLeaving (.go dest pc addr mirrored))

/-- A guest goes home and goes on there at `pc` (R91, R100). -/
def goHome (s : State) (pc : Word) : Out := .next (s.startLeaving (.home pc .goOn))

end Sys2Proof.Machine
end

