-- ==== Sys2Proof/Machine/Float.lean ====
section
/-! DEFINITION. Binary floating point, exactly: a pattern's value as an integer times a power of two, exact arithmetic,
and one rounding (R50 to R53, R165, R206, R207). -/

namespace Sys2Proof.Machine

/-- An IEEE 754 binary format: exponent bits and mantissa bits. -/
structure FloatFmt where
  ebits : Nat
  mbits : Nat
  deriving DecidableEq, Repr

/-- binary64, binary32, binary16 and bfloat16. -/
def f64 : FloatFmt := ⟨11, 52⟩
/-- binary32. -/
def f32 : FloatFmt := ⟨8, 23⟩
/-- binary16. -/
def f16 : FloatFmt := ⟨5, 10⟩
/-- bfloat16. -/
def bf16 : FloatFmt := ⟨8, 7⟩

/-- The exponent bias. -/
def FloatFmt.bias (f : FloatFmt) : Nat := 2 ^ (f.ebits - 1) - 1

/-- The position of the sign bit. -/
def FloatFmt.signBit (f : FloatFmt) : Nat := f.ebits + f.mbits

/-- The exponent of the least unit: the value of a subnormal's last mantissa bit is 2 to it. -/
def FloatFmt.qmin (f : FloatFmt) : Int := 1 - (f.bias : Int) - f.mbits

/-- The pattern of +Inf. -/
def FloatFmt.inf (f : FloatFmt) : Nat := (2 ^ f.ebits - 1) * 2 ^ f.mbits

/-- The default NaN: quiet bit set, sign clear (R50). -/
def FloatFmt.nan (f : FloatFmt) : Nat := f.inf + 2 ^ (f.mbits - 1)

/-- The value of a pattern. A finite one is (−1)^neg × m × 2^e. -/
inductive FVal where
  | nan
  | inf (neg : Bool)
  | fin (neg : Bool) (m : Nat) (e : Int)
  deriving DecidableEq, Repr

/-- Splits a pattern into sign, exponent field and mantissa field. -/
def FloatFmt.sign (f : FloatFmt) (v : Nat) : Bool := bit v f.signBit

/-- The exponent field. -/
def FloatFmt.expo (f : FloatFmt) (v : Nat) : Nat := v / 2 ^ f.mbits % 2 ^ f.ebits

/-- The mantissa field. -/
def FloatFmt.mant (f : FloatFmt) (v : Nat) : Nat := v % 2 ^ f.mbits

/-- The value of a pattern (R207). -/
def FloatFmt.value (f : FloatFmt) (v : Nat) : FVal :=
  let e := f.expo v
  let m := f.mant v
  if e = 2 ^ f.ebits - 1 then (if m = 0 then .inf (f.sign v) else .nan)
  else if e = 0 then .fin (f.sign v) m f.qmin
  else .fin (f.sign v) (2 ^ f.mbits + m) (f.qmin + (e - 1 : Nat))

/-- Whether a pattern is a NaN. -/
def FloatFmt.isNan (f : FloatFmt) (v : Nat) : Bool := f.expo v == 2 ^ f.ebits - 1 && f.mant v != 0

/-- Whether a pattern is subnormal (R54). -/
def FloatFmt.isSub (f : FloatFmt) (v : Nat) : Bool := f.expo v == 0 && f.mant v != 0

/-- A NaN with its quiet bit set and its other bits kept (R51). -/
def FloatFmt.quiet (f : FloatFmt) (v : Nat) : Nat := if bit v (f.mbits - 1) then v else v + 2 ^ (f.mbits - 1)

/-- A pattern with a sign. -/
def FloatFmt.signed (f : FloatFmt) (neg : Bool) (mag : Nat) : Nat := if neg then 2 ^ f.signBit + mag else mag

/-- The rounding directions (R50): nearest-even, toward zero, down, up. -/
inductive Rounding where
  | rne | rtz | rdn | rup
  deriving DecidableEq, Repr

/-- The direction that func10 [9:8] codes. -/
def roundingOf (r : BitVec 2) : Rounding :=
  match r.toNat with
  | 0 => .rne
  | 1 => .rtz
  | 2 => .rdn
  | _ => .rup

/-- Whether a magnitude t with remainder r of D rounds away from zero. -/
def roundsUp (rm : Rounding) (neg : Bool) (t r D : Nat) : Bool :=
  match rm with
  | .rne => decide (D < 2 * r) || (decide (2 * r = D) && t % 2 == 1)
  | .rtz => false
  | .rdn => neg && decide (r ≠ 0)
  | .rup => !neg && decide (r ≠ 0)

/-- n × 2^k for a k that may be negative, as a fraction's numerator and denominator factor. -/
def scaleUp (k : Int) : Nat := if 0 ≤ k then 2 ^ k.toNat else 1

/-- The exponent of the magnitude n ÷ d × 2^e: the greatest k with 2^k ≤ it. -/
def floorLog (n d : Nat) (e : Int) : Int :=
  let k : Int := (Nat.log2 n : Int) - (Nat.log2 d : Int) + e
  if d * scaleUp (k - e) ≤ n * scaleUp (e - k) then k else k - 1

/-- Rounds the exact magnitude n ÷ d × 2^e (n, d > 0) once into a format; the result's magnitude pattern. -/
def FloatFmt.roundMag (f : FloatFmt) (rm : Rounding) (neg : Bool) (n d : Nat) (e : Int) : Nat :=
  let k := floorLog n d e
  let q := max (k - f.mbits) f.qmin
  let N := n * scaleUp (e - q)
  let D := d * scaleUp (q - e)
  let t := N / D
  let t := if roundsUp rm neg t (N % D) D then t + 1 else t
  let pat := if t < 2 ^ f.mbits then t else (q - f.qmin).toNat * 2 ^ f.mbits + t
  if pat < f.inf then pat
  else
    match rm with
    | .rne => f.inf
    | .rtz => f.inf - 1
    | .rdn => if neg then f.inf else f.inf - 1
    | .rup => if neg then f.inf - 1 else f.inf

/-- Rounds an exact value into a format; a NaN becomes the default NaN. -/
def FloatFmt.round (f : FloatFmt) (rm : Rounding) : FVal → Nat
  | .nan => f.nan
  | .inf neg => f.signed neg f.inf
  | .fin neg m e => f.signed neg (if m = 0 then 0 else f.roundMag rm neg m 1 e)

/-- Whether an exact finite value is nonzero and below the least normal number of a format (R54). -/
def FloatFmt.tiny (f : FloatFmt) : FVal → Bool
  | .fin _ m e => decide (m ≠ 0) && decide (floorLog m 1 e < 1 - (f.bias : Int))
  | _ => false

/-- A signed sum of two magnitudes with exponents, as an integer times 2 to the smaller exponent. -/
def alignSum (n1 : Bool) (m1 : Nat) (e1 : Int) (n2 : Bool) (m2 : Nat) (e2 : Int) : Int × Int :=
  let e := min e1 e2
  let a : Int := (m1 * scaleUp (e1 - e) : Nat)
  let b : Int := (m2 * scaleUp (e2 - e) : Nat)
  ((if n1 then -a else a) + (if n2 then -b else b), e)

/-- The exact sum of two values; an exact zero sum of nonzero or unlike-signed terms takes the direction's sign. -/
def FVal.add (rm : Rounding) (x y : FVal) : FVal :=
  match x, y with
  | .nan, _ => .nan
  | _, .nan => .nan
  | .inf a, .inf b => if a = b then .inf a else .nan
  | .inf a, .fin _ _ _ => .inf a
  | .fin _ _ _, .inf b => .inf b
  | .fin a m e, .fin b k g =>
    let (v, x) := alignSum a m e b k g
    if v = 0 then
      if m = 0 ∧ k = 0 ∧ a = b then .fin a 0 0 else .fin (decide (rm = .rdn)) 0 0
    else .fin (decide (v < 0)) v.natAbs x

/-- The exact product. -/
def FVal.mul (x y : FVal) : FVal :=
  match x, y with
  | .nan, _ => .nan
  | _, .nan => .nan
  | .inf a, .inf b => .inf (Bool.xor a b)
  | .inf a, .fin b m _ => if m = 0 then .nan else .inf (Bool.xor a b)
  | .fin a m _, .inf b => if m = 0 then .nan else .inf (Bool.xor a b)
  | .fin a m e, .fin b k g => .fin (Bool.xor a b) (m * k) (e + g)

/-- The opposite value. -/
def FVal.neg : FVal → FVal
  | .nan => .nan
  | .inf a => .inf (!a)
  | .fin a m e => .fin (!a) m e

/-- Whether a value is zero. -/
def FVal.isZero : FVal → Bool
  | .fin _ m _ => m == 0
  | _ => false

/-- x < y, for values neither of which is a NaN. -/
def FVal.lt (x y : FVal) : Bool :=
  match x, y with
  | .inf a, .inf b => a && !b
  | .inf a, .fin _ _ _ => a
  | .fin _ _ _, .inf b => !b
  | .fin a m e, .fin b k g => decide ((alignSum a m e (!b) k g).1 < 0)
  | _, _ => false

/-- x = y as numbers: −0 equals +0, and no NaN equals anything (R49). -/
def FVal.eq (x y : FVal) : Bool :=
  match x, y with
  | .inf a, .inf b => a == b
  | .fin a m e, .fin b k g => decide ((alignSum a m e (!b) k g).1 = 0)
  | _, _ => false

/-- Whether a value is a NaN. -/
def FVal.isNan : FVal → Bool
  | .nan => true
  | _ => false

/-- The first NaN of a list of operands, quieted (R51). -/
def FloatFmt.firstNan (f : FloatFmt) : List Nat → Option Nat
  | [] => none
  | v :: vs => if f.isNan v then some (f.quiet v) else f.firstNan vs

/-- A result that follows R51 when an operand is a NaN. -/
def FloatFmt.nanOr (f : FloatFmt) (ops : List Nat) (v : Nat) : Nat := (f.firstNan ops).getD v

/-- FADD (R52). -/
def FloatFmt.add (f : FloatFmt) (rm : Rounding) (a b : Nat) : Nat :=
  f.nanOr [a, b] (f.round rm ((f.value a).add rm (f.value b)))

/-- The exact results, for the subnormal test of R54. -/
def FloatFmt.addTiny (f : FloatFmt) (rm : Rounding) (a b : Nat) : Bool :=
  f.tiny ((f.value a).add rm (f.value b))

/-- A pattern with its sign inverted. -/
def FloatFmt.flip (f : FloatFmt) (v : Nat) : Nat := if f.sign v then v - 2 ^ f.signBit else v + 2 ^ f.signBit

/-- FSUB: ra − rb; a NaN operand keeps its own sign. -/
def FloatFmt.sub (f : FloatFmt) (rm : Rounding) (a b : Nat) : Nat :=
  f.nanOr [a, b] (f.round rm ((f.value a).add rm (f.value b).neg))

/-- FMUL. -/
def FloatFmt.mul (f : FloatFmt) (rm : Rounding) (a b : Nat) : Nat :=
  f.nanOr [a, b] (f.round rm ((f.value a).mul (f.value b)))

/-- FMA: rd + ra × rb, rounded once; NaNs in the order ra, rb, rd. -/
def FloatFmt.fma (f : FloatFmt) (rm : Rounding) (d a b : Nat) : Nat :=
  f.nanOr [a, b, d] (f.round rm ((f.value d).add rm ((f.value a).mul (f.value b))))

/-- The quotient of two finite values with a nonzero divisor, rounded. -/
def FloatFmt.divFin (f : FloatFmt) (rm : Rounding) (neg : Bool) (m : Nat) (e : Int) (k : Nat) (g : Int) : Nat :=
  f.signed neg (if m = 0 then 0 else f.roundMag rm neg m k (e - g))

/-- FDIV. -/
def FloatFmt.div (f : FloatFmt) (rm : Rounding) (a b : Nat) : Nat :=
  f.nanOr [a, b] (
    match f.value a, f.value b with
    | .inf s, .fin t _ _ => f.signed (Bool.xor s t) f.inf
    | .fin s _ _, .inf t => f.signed (Bool.xor s t) 0
    | .fin s m e, .fin t k g =>
      if k = 0 then (if m = 0 then f.nan else f.signed (Bool.xor s t) f.inf)
      else f.divFin rm (Bool.xor s t) m e k g
    | _, _ => f.nan)

/-- Whether a quotient's exact value is nonzero and below the least normal number (R54). -/
def FloatFmt.divTiny (f : FloatFmt) (a b : Nat) : Bool :=
  match f.value a, f.value b with
  | .fin _ m e, .fin _ k g =>
    decide (m ≠ 0) && decide (k ≠ 0) && decide (floorLog m k (e - g) < 1 - (f.bias : Int))
  | _, _ => false

/-- The integer square root, from its bit k down. -/
def isqrtFrom : Nat → Nat → Nat → Nat
  | 0, _, r => r
  | k + 1, n, r => if (r + 2 ^ k) * (r + 2 ^ k) ≤ n then isqrtFrom k n (r + 2 ^ k) else isqrtFrom k n r

/-- The integer square root. -/
def isqrt (n : Nat) : Nat := isqrtFrom (Nat.log2 n / 2 + 1) n 0

/-- The square root of m × 2^e (m > 0) as a magnitude with a sticky last bit, exact enough to round to 2 + `p` bits. -/
def sqrtMag (p : Nat) (m : Nat) (e : Int) : Nat × Int :=
  let odd := e % 2 ≠ 0
  let m := if odd then 2 * m else m
  let e := if odd then e - 1 else e
  let N := m * 2 ^ (2 * p)
  let t := isqrt N
  (2 * t + (if t * t = N then 0 else 1), e / 2 - p - 1)

/-- FSQRT (R52): the root of −0 is −0, and a value below zero gives the default NaN. -/
def FloatFmt.sqrt (f : FloatFmt) (rm : Rounding) (a : Nat) : Nat :=
  f.nanOr [a] (
    match f.value a with
    | .nan => f.nan
    | .inf s => if s then f.nan else f.inf
    | .fin s m e =>
      if m = 0 then f.signed s 0
      else if s then f.nan
      else
        let (n, g) := sqrtMag (f.mbits + 4) m e
        f.roundMag rm false n 1 g)

/-- minimumNumber: −0 below +0; one NaN gives the other operand, two give the default NaN (R52). -/
def FloatFmt.min (f : FloatFmt) (a b : Nat) : Nat :=
  if f.isNan a then (if f.isNan b then f.nan else b)
  else if f.isNan b then a
  else if (f.value b).lt (f.value a) then b
  else if (f.value a).lt (f.value b) then a
  else if f.sign a then a else b

/-- maximumNumber (R52). -/
def FloatFmt.max (f : FloatFmt) (a b : Nat) : Nat :=
  if f.isNan a then (if f.isNan b then f.nan else b)
  else if f.isNan b then a
  else if (f.value a).lt (f.value b) then b
  else if (f.value b).lt (f.value a) then a
  else if f.sign a then b else a

/-- The sign bit cleared, every other bit kept. -/
def FloatFmt.abs (f : FloatFmt) (a : Nat) : Nat := a % 2 ^ f.signBit

/-- Rounds an exact value to an integer. -/
def FVal.toInt (rm : Rounding) : FVal → Int
  | .fin neg m e =>
    let N := m * scaleUp e
    let D := scaleUp (-e)
    let t := N / D
    let t := if roundsUp rm neg t (N % D) D then t + 1 else t
    if neg then -(t : Int) else t
  | _ => 0

/-- Saturates an integer to [lo, hi]. -/
def clamp (lo hi v : Int) : Int := if v < lo then lo else if hi < v then hi else v

/-- A value into an integer range: saturating, a NaN to 0 (R53, R172). -/
def FVal.toIntSat (rm : Rounding) (lo hi : Int) : FVal → Int
  | .nan => 0
  | .inf neg => if neg then lo else hi
  | .fin neg m e => clamp lo hi (FVal.toInt rm (.fin neg m e))

/-- An integer as an exact value; zero is +0. -/
def FVal.ofInt (i : Int) : FVal := .fin (decide (i < 0)) i.natAbs 0

/-- A NaN of one format into another: the top payload bits that fit, quieted (R53); widening keeps them all. -/
def convertNan (src dst : FloatFmt) (v : Nat) : Nat :=
  let m := if dst.mbits ≤ src.mbits then src.mant v / 2 ^ (src.mbits - dst.mbits)
    else src.mant v * 2 ^ (dst.mbits - src.mbits)
  let q := 2 ^ (dst.mbits - 1)
  dst.signed (src.sign v) (dst.inf + (if m / q % 2 = 1 then m else m + q))

/-- Converts between formats with one rounding (R53). -/
def convertFloat (src dst : FloatFmt) (rm : Rounding) (v : Nat) : Nat :=
  if src.isNan v then convertNan src dst v else dst.round rm (src.value v)

end Sys2Proof.Machine
end

