-- ==== Sys2Proof/Machine/Flags.lean ====
section
/-! DEFINITION. The conditions that set predicates and mask bits: CMP and CMPI (R27, R47), FCMP (R49), VCMP and VCMPU
(R170). The machine has no other flags: thread cores keep no floating-point exception flags (R50). -/

namespace Sys2Proof.Machine

/-- The condition that a code of CMP and CMPI names (R27); codes 10 to 15 are illegal. -/
def compare (c : BitVec 4) (a b : Word) : Bool :=
  match c.toNat with
  | 0 => a == b
  | 1 => a != b
  | 2 => BitVec.slt a b
  | 3 => BitVec.sle a b
  | 4 => BitVec.slt b a
  | 5 => BitVec.sle b a
  | 6 => BitVec.ult a b
  | 7 => BitVec.ule a b
  | 8 => BitVec.ult b a
  | _ => BitVec.ule b a

/-- An operand of CMP at 32-bit width: sign-extended for eq to ge, zero-extended for ltu to geu (R47). -/
def narrow (c : BitVec 4) (a : Word) : Word :=
  if c.toNat ≤ 5 then (a.truncate 32).signExtend 64 else (a.truncate 32).zeroExtend 64

/-- CMP (R47): w = 1 is the 32-bit width. -/
def compareAt (w : BitVec 1) (c : BitVec 4) (a b : Word) : Bool :=
  if w = 1 then compare c (narrow c a) (narrow c b) else compare c a b

/-- FCMP (R49), and conditions 0 to 6 of R170: eq, lt, le, un, ne, gt, ge. -/
def floatCompare (c : Nat) (x y : FVal) : Bool :=
  let un := x.isNan || y.isNan
  match c with
  | 0 => !un && x.eq y
  | 1 => !un && x.lt y
  | 2 => !un && (x.lt y || x.eq y)
  | 3 => un
  | 4 => un || !x.eq y
  | 5 => !un && y.lt x
  | _ => !un && (y.lt x || x.eq y)

/-- FCMP on registers: t = 1 compares the low 32 bits as binary32. -/
def fcmpBits (t : BitVec 1) (c : Nat) (a b : Word) : Bool :=
  if t = 1 then floatCompare c (f32.value (a.toNat % 2 ^ 32)) (f32.value (b.toNat % 2 ^ 32))
  else floatCompare c (f64.value a.toNat) (f64.value b.toNat)

end Sys2Proof.Machine
end

