-- ==== Sys2Proof/Machine/Operands.lean ====
section
/-! DEFINITION. The operand forms of thread instructions: immediates (R26, R45), memory operands (R17, R27), scope
words (R32, R260), destination words (R95, R98), and the operands of job requests (R34). -/

namespace Sys2Proof.Machine

/-- A sign-extended immediate. -/
def sx {n : Nat} (v : BitVec n) : Word := v.signExtend 64

/-- A zero-extended immediate. -/
def zx {n : Nat} (v : BitVec n) : Word := v.zeroExtend 64

/-- The access size in bytes that sz codes (R22). -/
def memSize (z : BitVec 2) : Nat := 2 ^ z.toNat

/-- ra ± off: the offset scaled by the size (R27). -/
def memOffset (z : BitVec 2) (off : BitVec 10) : Word := ofInt (off.toInt * (memSize z : Nat))

/-- The address of an LD or ST operand (R27): with pi = 1 it is ra itself. -/
def State.memAddr (s : State) (a : Reg) (z : BitVec 2) (pi : BitVec 1) (off : BitVec 10) : Word :=
  if pi = 1 then s.reg a else s.reg a + memOffset z off

/-- The advance of a post-increment (R27). -/
def State.postIncrement (s : State) (a : Reg) (z : BitVec 2) (pi : BitVec 1) (off : BitVec 10) : State :=
  if pi = 1 then s.setReg a (s.reg a + memOffset z off) else s

/-- Extends a loaded value of n bytes (R75). -/
def extendLoad (n : Nat) (sgn : Bool) (v : Nat) : Word :=
  if sgn then ofInt (signed (8 * n) v) else toWord v

/-- The level of a scope word (Table 14 of R32). -/
def scopeLevel (w : Word) : Nat := wbits w 60 4

/-- X0, Y0, X1 and Y1 of a rectangle in bits [21:0]. -/
def rectOf (v : Nat) : Nat × Nat × Nat × Nat :=
  (v / 2 ^ 16 % 64, v / 2 ^ 11 % 32, v / 2 ^ 5 % 64, v % 32)

/-- Whether a rectangle is legal at level 2 (R32). -/
def rectLegal (v : Nat) : Bool :=
  let (x0, y0, x1, y1) := rectOf v
  decide (x0 ≤ x1) && decide (y0 ≤ y1) && decide (y0 ≤ 15) && decide (y1 ≤ 15)

/-- Whether a scope word keeps R32. -/
def scopeLegal (w : Word) : Bool :=
  let l := scopeLevel w
  decide (l ≤ 6) && wbits w 22 38 == 0 && (if l == 2 then rectLegal (wbits w 0 22) else wbits w 0 22 == 0)

/-- Whether core (x, y) lies inside a rectangle. -/
def inRect (v x y : Nat) : Bool :=
  let (x0, y0, x1, y1) := rectOf v
  decide (x0 ≤ x) && decide (x ≤ x1) && decide (y0 ≤ y) && decide (y ≤ y1)

/-- The level at which a scope acts for an issuer: edge and switch cores widen the lower levels (R260). -/
def effectiveLevel (c : CoreRef) (l : Nat) : Nat :=
  match c with
  | .thread _ _ _ => l
  | .edge _ _ => if l = 2 ∨ l = 3 then 4 else l
  | .switch _ _ => if l = 2 ∨ l = 3 ∨ l = 4 then 5 else l

/-- Whether an access of n bytes at an address is aligned to n. -/
def aligned (va : Word) (n : Nat) : Bool := va.toNat % n == 0

/-- The destination core of a destination word, or none when it breaks a field (R95). The device of a word with
REMOTE = 0 is the issuer's. -/
def destination (dev : Nat) (w : Word) : Option CoreRef :=
  let remote := wbits w 48 1
  let d := if remote = 1 then wbits w 40 8 else dev
  if wbits w 49 15 ≠ 0 ∨ wbits w 15 25 ≠ 0 ∨ (remote = 0 ∧ wbits w 40 8 ≠ 0) ∨ 191 < d then none
  else if wbits w 14 1 = 0 then
    if wbits w 13 1 ≠ 0 then none else some (.thread d (wbits w 7 6) (wbits w 3 4))
  else if wbits w 3 4 ≠ 0 then none
  else some (.edge d (wbits w 7 7))

/-- The class of a destination word. -/
def destClass (w : Word) : Nat := wbits w 0 3

/-- The multicast word (R98): its device and whether it is remote, or none when it breaks a field. R95 gives bad-destination to
the MBZ fields and the device; that a LEVEL other than 2 and an ill-formed rectangle have the same cause is the model's choice.
[log 85] -/
def multicast (dev : Nat) (w : Word) : Option (Nat × Bool) :=
  let remote := wbits w 48 1
  let d := if remote = 1 then wbits w 40 8 else dev
  if scopeLevel w ≠ 2 ∨ wbits w 49 11 ≠ 0 ∨ wbits w 25 15 ≠ 0 ∨ (remote = 0 ∧ wbits w 40 8 ≠ 0) ∨ 191 < d
      ∨ !rectLegal (wbits w 0 22) then none
  else some (d, remote == 1)

/-- The cores of a rectangle in snake order: even rows from x0 to x1, odd ones back (R98). -/
def snake (d v : Nat) : List CoreRef :=
  let (x0, y0, x1, y1) := rectOf v
  ((List.range (y1 + 1 - y0)).map fun r =>
    let xs := List.range (x1 + 1 - x0)
    let xs := if r % 2 = 0 then xs.map fun i => x0 + i else xs.map fun i => x1 - i
    xs.map fun x => CoreRef.thread d x (y0 + r)).flatten

/-- The message words of SEND and MCAST: rb to rb + n (n codes the count less one). -/
def State.messageWords (s : State) (b : Reg) (n : BitVec 4) : List Word :=
  (List.range (n.toNat + 1)).map fun k => s.reg (BitVec.ofNat 4 (b.toNat + k))

/-- The pipe mask of a JOB: bits 0 to 191 of rd + 1, rd + 2 and rd + 3 (R34). -/
def State.jobMask (s : State) (d : Reg) : Nat :=
  (s.reg (d + 1)).toNat + (s.reg (d + 2)).toNat * 2 ^ 64 + (s.reg (d + 3)).toNat * 2 ^ 128

/-- A branch target: the branch's own address + 4 × sext(disp20) (R25). -/
def branchTarget (pc : Word) (disp : BitVec 20) : Word := pc + ofInt (4 * disp.toInt)

end Sys2Proof.Machine
end

