-- ==== Sys2Proof/WellFormed.lean ====
section
/-! DEFINITION. Which terms of Instr stand for a legal word: the reserved sub-field codes of R24, R27, R29, R30 and the
limits on suffixes and modifiers of the stream words. -/

namespace Sys2Proof

/-- The condition codes of CMP and CMPI (R27). -/
def condLegal (c : BitVec 4) : Bool := decide (c.toNat ≤ 9)

/-- The legal pairs of CVT and, for the pairs that are always exact, a rounding field of zero (R27, R53). -/
def cvtLegal (r : BitVec 2) (s t : BitVec 4) : Bool :=
  let src := s.toNat
  let dst := t.toNat
  let pair := (decide (src ≤ 3) && (dst == 4 || dst == 5)) || (decide (dst ≤ 3) && (src == 4 || src == 5))
    || (src == 4 && dst == 5) || (src == 5 && dst == 4) || (src == 4 && dst == 6) || (src == 6 && dst == 4)
  let exact := (src == 4 && dst == 5) || (src == 6 && dst == 4) || ((src == 0 || src == 2) && dst == 5)
  pair && (!exact || r == 0)

/-- The fields of an atomic (R27): scope 7 is illegal and order .rlx takes no scope. -/
def atomicLegal (l : BitVec 3) (o : BitVec 2) : Bool := l != 7 && (o != 0 || l == 0)

/-- The numbers that SYSW writes through a constructor of their own (R21). -/
def syswSpecial (r : Nat) : Bool :=
  r == 0 || r == 4 || r == 8 || r == 9 || r == 10 || (decide (0x10 ≤ r) && decide (r ≤ 0x13))
    || (decide (0x20 ≤ r) && decide (r ≤ 0x26)) || r == 0x30 || (decide (0x40 ≤ r) && decide (r ≤ 0x5F))

/-- Suffix codes of a VXE word whose operands are float (R165). -/
def vecSuffix (s : BitVec 5) : Bool := decide (s.toNat ≤ 3)

/-- Suffix codes of VMOV and VSEL (R168). -/
def copySuffix (s : BitVec 5) : Bool := decide (s.toNat ≤ 3) || (decide (13 ≤ s.toNat) && decide (s.toNat ≤ 15))

/-- Resolve targets of CPRS, CPRH and VRES (Table 4 of R147). -/
def resolveLegal (s : BitVec 5) (i : BitVec 1) : Bool :=
  if i == 0 then (decide (1 ≤ s.toNat) && decide (s.toNat ≤ 3)) || s.toNat == 13 || s.toNat == 14 else s == 0

/-- Destinations of VRQ (R175). -/
def vrqLegal (s : BitVec 5) (i : BitVec 1) : Bool :=
  if i == 0 then decide (13 ≤ s.toNat) && decide (s.toNat ≤ 15) else s == 0

/-- Destination and source of VCVT (R172). -/
def vcvtLegal (d : BitVec 5) (s : BitVec 3) : Bool :=
  let int := d.toNat == 13 || d.toNat == 14
  ((decide (1 ≤ d.toNat) && decide (d.toNat ≤ 6)) || int) && decide (s.toNat ≤ 3) && !(int && s.toNat == 3)

/-- The legal terms. -/
def Instr.wf : Instr → Bool
  | .cmp _ _ _ _ _ c => condLegal c
  | .cmpi _ _ _ c _ => condLegal c
  | .fcmp _ _ _ _ _ c => decide (c.toNat ≤ 4)
  | .cvt _ _ _ r s t => cvtLegal r s t
  | .lnadd _ _ _ _ t | .lnsub _ _ _ _ t | .lnmul _ _ _ _ t | .lnmin _ _ _ _ t | .lnmax _ _ _ _ t
  | .lnfma _ _ _ _ t | .lndot _ _ _ _ t => decide (t.toNat ≤ 10)
  | .lnand _ _ _ _ t | .lnor _ _ _ _ t | .lnxor _ _ _ _ t => decide (t.toNat ≤ 7)
  | .lncpy _ _ _ t | .lnsum _ _ _ t => decide (t.toNat ≤ 10)
  | .br _ h _ => h != 3
  | .ld _ _ _ z x _ _ => z != 3 || x == 0
  | .ldAcq _ _ _ z x _ => z != 3 || x == 0
  | .faa _ _ _ _ l o _ | .swp _ _ _ _ l o _ | .atomicAnd _ _ _ _ l o _ | .atomicOr _ _ _ _ l o _
  | .atomicXor _ _ _ _ l o _ | .atomicMinI _ _ _ _ l o _ | .atomicMaxI _ _ _ _ l o _ | .atomicMinN _ _ _ _ l o _
  | .atomicMaxN _ _ _ _ l o _ | .fadda _ _ _ _ l o _ => atomicLegal l o
  | .cas _ _ _ _ l f o _ => atomicLegal l o && (f == 0 || o == 2)
  | .redc _ _ _ l o _ => atomicLegal l o
  | .spawnu _ _ _ k => decide (k.toNat ≤ 6)
  | .send _ _ b n | .mcast _ _ b n => decide (b.toNat + n.toNat ≤ 15)
  | .job _ d _ | .jobRel _ d _ => decide (d.toNat ≤ 11)
  | .salloc _ d _ b | .sallocMir _ d _ b => d != b
  | .dotm _ _ _ t => t != 3
  | .sysw _ _ r => !syswSpecial r.toNat
  | .syswHmask _ _ h => h != 7
  | .shls k _ => k != 3
  | .setf n => decide (n.toNat ≤ 4)
  | .take e => decide (e.toNat ≤ 4)
  | .await n | .tfw n | .tfa n => n != 0
  | .mma s _ _ _ | .mmaz s _ _ _ | .dwa s | .dwaz s => decide (s.toNat ≤ 20)
  | .vadd s | .vsub s | .vmul s | .vfma s | .vmax s | .vmin s | .vabs s | .vexp s | .vrcp s | .vrsq s => vecSuffix s
  | .vsel s | .vmov s => copySuffix s
  | .vcmp s c | .vcmpu s c => vecSuffix s && c != 7
  | .vred s o => vecSuffix s && decide (o.toNat ≤ 3)
  | .vcvt d s => vcvtLegal d s
  | .vres s i | .cprs s i | .cprh s i => resolveLegal s i
  | .vrq s i => vrqLegal s i
  | .topr s | .topc s => decide (1 ≤ s.toNat) && decide (s.toNat ≤ 3)
  | _ => true

end Sys2Proof
end

