-- ==== Sys2Proof/Machine/Integer.lean ====
section
/-! DEFINITION. Integer arithmetic (R39 to R41), logic and shifts (R42), min, max, extend, move and select (R43), scaled
address add (R44), immediate forms (R26, R45, R46), compare and predicate instructions (R47, R48). -/

namespace Sys2Proof.Machine

/-- Writes a result and goes on (R36). -/
def result (len : Nat) (s : State) (d : Reg) (v : Word) : Out := .next ((s.setReg d v).retire len)

/-- An instruction rd := f(ra, rb). -/
def binary (f : Word → Word → Word) (g : Guard) (d a b : Reg) (s : State) : Out :=
  guarded g 4 s fun s => result 4 s d (f (s.reg a) (s.reg b))

/-- An instruction rd := f(ra). -/
def unary (f : Word → Word) (g : Guard) (d a : Reg) (s : State) : Out :=
  guarded g 4 s fun s => result 4 s d (f (s.reg a))

/-- An instruction pd := b. -/
def setsPred (e : BitVec 3) (g : Guard) (s : State) (b : State → Bool) : Out :=
  guarded g 4 s fun s => .next ((s.setPred e (b s)).retire 4)

/-! ## Shared units (R38, R55, R226) -/

/-- The acting context forfeits turns (R38), and with `norm` asks for the normaliser after them (R54). -/
def State.served (s : State) (turns : Nat) (norm : Bool) : State :=
  if norm then
    (s.modCtx s.tf fun c => { c with last := some (s.wcc + 4 * turns) }).park s.tf (.until (s.wcc + 4 * turns) true)
  else s.forfeit turns

/-- The acting context asks for the divider for `cycles`; it forfeits `turns` once the divider serves it (R38, R55), and with
`norm` asks for the normaliser after them (R54). -/
def State.useDivider (s : State) (cycles turns : Nat) (norm : Bool) : State :=
  let c := s.core s.tf.core
  if c.divBusy ≤ s.wcc ∧ c.divQueue = [] then
    (s.modCore s.tf.core fun c => { c with divBusy := s.wcc + cycles }).served turns norm
  else
    let s1 := s.modCore s.tf.core fun c => { c with divQueue := c.divQueue ++ [(s.tf.n, cycles)] }
    s1.park s.tf (.unit .divider turns norm)

/-- Whether a core's normaliser takes an instruction at once (R226). -/
def State.normFree (s : State) (c : CoreRef) : Bool := decide ((s.core c).normBusy ≤ s.wcc) && (s.core c).normQueue == []

/-- The acting context asks for the normaliser, which serves one instruction at a time for 4 cycles; it forfeits 3
turns from the cycle in which it is served (R54, R226). -/
def State.useNormaliser (s : State) : State :=
  if s.normFree s.tf.core then
    (s.modCore s.tf.core fun c => { c with normBusy := s.wcc + 4 }).forfeit 3
  else
    let s1 := s.modCore s.tf.core fun c => { c with normQueue := c.normQueue ++ [s.tf.n] }
    s1.park s.tf (.unit .normaliser 3 false)

/-! ## Values -/

/-- MULH (Table 3 of R40). -/
def mulhSigned (a b : Word) : Word := ofInt (a.toInt * b.toInt / 2 ^ 64)
/-- MULH unsigned. -/
def mulhUnsigned (a b : Word) : Word := toWord (a.toNat * b.toNat / 2 ^ 64)

/-- DIV.i64: truncates toward zero; the fixed results of R41. -/
def divSigned (a b : Word) : Word := if b = 0 then -1 else ofInt (Int.tdiv a.toInt b.toInt)
/-- DIV.n64. -/
def divUnsigned (a b : Word) : Word := if b = 0 then -1 else toWord (a.toNat / b.toNat)
/-- REM.i64: the sign of ra. -/
def remSigned (a b : Word) : Word := if b = 0 then a else ofInt (Int.tmod a.toInt b.toInt)
/-- REM.n64. -/
def remUnsigned (a b : Word) : Word := if b = 0 then a else toWord (a.toNat % b.toNat)

/-- Saturates to [−2^63, 2^63 − 1]. -/
def saturate64 (i : Int) : Word := ofInt (clamp (-(2 ^ 63)) (2 ^ 63 - 1) i)

/-- Leading zeros among the low n bits. -/
def leadingZeros : Nat → Nat → Nat
  | 0, _ => 0
  | n + 1, v => if bit v n then 0 else 1 + leadingZeros n v

/-- Trailing zeros of n bits from bit k on. -/
def trailingZeros : Nat → Nat → Nat → Nat
  | 0, _, _ => 0
  | n + 1, k, v => if bit v k then 0 else 1 + trailingZeros n (k + 1) v

/-- The number of one bits among the low n. -/
def popCount : Nat → Nat → Nat
  | 0, _ => 0
  | n + 1, v => popCount n v + (if bit v n then 1 else 0)

/-- The low n bits reversed within 64. -/
def reverseBits : Nat → Nat → Nat
  | 0, _ => 0
  | n + 1, v => reverseBits n v + (if bit v n then 2 ^ (63 - n) else 0)

/-- The eight bytes reversed. -/
def swapBytes (v : Word) : Word := toWord (leNat (leBytes 8 v.toNat).reverse)

/-- The shift amount rb[5:0] (R42). -/
def amount (b : Word) : Nat := b.toNat % 64

/-- SHL, SHR, SAR, ROL and ROR by n. -/
def shlBy (a : Word) (n : Nat) : Word := a <<< n
/-- SHR. -/
def shrBy (a : Word) (n : Nat) : Word := a >>> n
/-- SAR. -/
def sarBy (a : Word) (n : Nat) : Word := a.sshiftRight n
/-- ROL. -/
def rolBy (a : Word) (n : Nat) : Word := a.rotateLeft n
/-- ROR. -/
def rorBy (a : Word) (n : Nat) : Word := a.rotateRight n

/-- SEXT.iN: copies bit n − 1 upward (R43). -/
def sextTo (n : Nat) (a : Word) : Word := (a.truncate n).signExtend 64
/-- ZEXT.nN. -/
def zextTo (n : Nat) (a : Word) : Word := (a.truncate n).zeroExtend 64

/-- Minimum and maximum by a strict order; ra when the operands are equal. -/
def minBy (lt : Word → Word → Bool) (a b : Word) : Word := if lt b a then b else a
/-- Maximum. -/
def maxBy (lt : Word → Word → Bool) (a b : Word) : Word := if lt a b then b else a

/-! ## Integer arithmetic (R40, R41) -/

/-- ADD (R40). -/
def execAdd (g : Guard) (d a b : Reg) (s : State) : Out := binary (fun x y => x + y) g d a b s
/-- SUB (R40). -/
def execSub (g : Guard) (d a b : Reg) (s : State) : Out := binary (fun x y => x - y) g d a b s
/-- MUL (R40). -/
def execMul (g : Guard) (d a b : Reg) (s : State) : Out := binary (fun x y => x * y) g d a b s
/-- MULH.i64 (R40). -/
def execMulhI64 (g : Guard) (d a b : Reg) (s : State) : Out := binary mulhSigned g d a b s
/-- MULH.n64 (R40). -/
def execMulhN64 (g : Guard) (d a b : Reg) (s : State) : Out := binary mulhUnsigned g d a b s

/-- A division: the result, then the divider for 64 cycles and 15 forfeited turns (R38, R41, R55). -/
def division (f : Word → Word → Word) (g : Guard) (d a b : Reg) (s : State) : Out :=
  guarded g 4 s fun s => .next (((s.setReg d (f (s.reg a) (s.reg b))).retire 4).useDivider 64 15 false)

/-- DIV.i64 (R40, R41). -/
def execDivI64 (g : Guard) (d a b : Reg) (s : State) : Out := division divSigned g d a b s
/-- DIV.n64 (R40, R41). -/
def execDivN64 (g : Guard) (d a b : Reg) (s : State) : Out := division divUnsigned g d a b s
/-- REM.i64 (R40, R41). -/
def execRemI64 (g : Guard) (d a b : Reg) (s : State) : Out := division remSigned g d a b s
/-- REM.n64 (R40, R41). -/
def execRemN64 (g : Guard) (d a b : Reg) (s : State) : Out := division remUnsigned g d a b s

/-- ADDSAT.i64 (R40). -/
def execAddsatI64 (g : Guard) (d a b : Reg) (s : State) : Out :=
  binary (fun x y => saturate64 (x.toInt + y.toInt)) g d a b s
/-- SUBSAT.i64 (R40). -/
def execSubsatI64 (g : Guard) (d a b : Reg) (s : State) : Out :=
  binary (fun x y => saturate64 (x.toInt - y.toInt)) g d a b s
/-- ABS (R40): of −2^63 it is −2^63. -/
def execAbs (g : Guard) (d a : Reg) (s : State) : Out := unary (fun x => if x.msb then 0 - x else x) g d a s
/-- NEG (R40). -/
def execNeg (g : Guard) (d a : Reg) (s : State) : Out := unary (fun x => 0 - x) g d a s

/-! ## Logic, shifts, bit counts (R42) -/

/-- AND (R42). -/
def execAnd (g : Guard) (d a b : Reg) (s : State) : Out := binary (fun x y => x &&& y) g d a b s
/-- OR (R42). -/
def execOr (g : Guard) (d a b : Reg) (s : State) : Out := binary (fun x y => x ||| y) g d a b s
/-- XOR (R42). -/
def execXor (g : Guard) (d a b : Reg) (s : State) : Out := binary (fun x y => x ^^^ y) g d a b s
/-- ANDN (R42): ra AND NOT rb. -/
def execAndn (g : Guard) (d a b : Reg) (s : State) : Out := binary (fun x y => x &&& ~~~y) g d a b s
/-- ORN (R42): ra OR NOT rb. -/
def execOrn (g : Guard) (d a b : Reg) (s : State) : Out := binary (fun x y => x ||| ~~~y) g d a b s
/-- XNOR (R42). -/
def execXnor (g : Guard) (d a b : Reg) (s : State) : Out := binary (fun x y => ~~~(x ^^^ y)) g d a b s
/-- SHL (R42). -/
def execShl (g : Guard) (d a b : Reg) (s : State) : Out := binary (fun x y => shlBy x (amount y)) g d a b s
/-- SHR (R42). -/
def execShr (g : Guard) (d a b : Reg) (s : State) : Out := binary (fun x y => shrBy x (amount y)) g d a b s
/-- SAR (R42). -/
def execSar (g : Guard) (d a b : Reg) (s : State) : Out := binary (fun x y => sarBy x (amount y)) g d a b s
/-- ROL (R42). -/
def execRol (g : Guard) (d a b : Reg) (s : State) : Out := binary (fun x y => rolBy x (amount y)) g d a b s
/-- ROR (R42). -/
def execRor (g : Guard) (d a b : Reg) (s : State) : Out := binary (fun x y => rorBy x (amount y)) g d a b s
/-- CLZ (R42): 64 for 0. -/
def execClz (g : Guard) (d a : Reg) (s : State) : Out := unary (fun x => toWord (leadingZeros 64 x.toNat)) g d a s
/-- CTZ (R42): 64 for 0. -/
def execCtz (g : Guard) (d a : Reg) (s : State) : Out := unary (fun x => toWord (trailingZeros 64 0 x.toNat)) g d a s
/-- POPC (R42). -/
def execPopc (g : Guard) (d a : Reg) (s : State) : Out := unary (fun x => toWord (popCount 64 x.toNat)) g d a s
/-- BREV (R42): rd[i] := ra[63 − i]. -/
def execBrev (g : Guard) (d a : Reg) (s : State) : Out := unary (fun x => toWord (reverseBits 64 x.toNat)) g d a s
/-- BSWAP (R42). -/
def execBswap (g : Guard) (d a : Reg) (s : State) : Out := unary swapBytes g d a s

/-! ## Min, max, extend, move, select, scaled add (R43, R44) -/

/-- MIN.i64 (R43). -/
def execMinI64 (g : Guard) (d a b : Reg) (s : State) : Out := binary (minBy BitVec.slt) g d a b s
/-- MAX.i64 (R43). -/
def execMaxI64 (g : Guard) (d a b : Reg) (s : State) : Out := binary (maxBy BitVec.slt) g d a b s
/-- MIN.n64 (R43). -/
def execMinN64 (g : Guard) (d a b : Reg) (s : State) : Out := binary (minBy BitVec.ult) g d a b s
/-- MAX.n64 (R43). -/
def execMaxN64 (g : Guard) (d a b : Reg) (s : State) : Out := binary (maxBy BitVec.ult) g d a b s
/-- SEXT.i8 (R43). -/
def execSextI8 (g : Guard) (d a : Reg) (s : State) : Out := unary (sextTo 8) g d a s
/-- SEXT.i16 (R43). -/
def execSextI16 (g : Guard) (d a : Reg) (s : State) : Out := unary (sextTo 16) g d a s
/-- SEXT.i32 (R43). -/
def execSextI32 (g : Guard) (d a : Reg) (s : State) : Out := unary (sextTo 32) g d a s
/-- ZEXT.n8 (R43). -/
def execZextN8 (g : Guard) (d a : Reg) (s : State) : Out := unary (zextTo 8) g d a s
/-- ZEXT.n16 (R43). -/
def execZextN16 (g : Guard) (d a : Reg) (s : State) : Out := unary (zextTo 16) g d a s
/-- ZEXT.n32 (R43). -/
def execZextN32 (g : Guard) (d a : Reg) (s : State) : Out := unary (zextTo 32) g d a s
/-- MOV (R43). -/
def execMov (g : Guard) (d a : Reg) (s : State) : Out := unary (fun x => x) g d a s
/-- SEL (R43): rd := pk ? ra : rb. -/
def execSel (g : Guard) (d a b : Reg) (k : BitVec 3) (s : State) : Out :=
  guarded g 4 s fun s => result 4 s d (if s.pred k then s.reg a else s.reg b)
/-- LEA (R44): rd := ra + (rb << k). -/
def execLea (g : Guard) (d a b : Reg) (k : BitVec 2) (s : State) : Out :=
  binary (fun x y => x + y <<< k.toNat) g d a b s

/-! ## Immediate forms (R26, R45, R46) -/

/-- An instruction rd := f(ra) of `len` bytes. -/
def withImmediate (len : Nat) (f : Word → Word) (g : Guard) (d a : Reg) (s : State) : Out :=
  guarded g len s fun s => result len s d (f (s.reg a))

/-- ADDI (R45). -/
def execAddi (g : Guard) (d a : Reg) (i : BitVec 14) (s : State) : Out := withImmediate 4 (fun x => x + sx i) g d a s
/-- ANDI (R45). -/
def execAndi (g : Guard) (d a : Reg) (i : BitVec 14) (s : State) : Out := withImmediate 4 (fun x => x &&& zx i) g d a s
/-- ORI (R45). -/
def execOri (g : Guard) (d a : Reg) (i : BitVec 14) (s : State) : Out := withImmediate 4 (fun x => x ||| zx i) g d a s
/-- XORI (R45). -/
def execXori (g : Guard) (d a : Reg) (i : BitVec 14) (s : State) : Out := withImmediate 4 (fun x => x ^^^ zx i) g d a s
/-- MOVI (R45). -/
def execMovi (g : Guard) (d : Reg) (i : BitVec 14) (s : State) : Out := withImmediate 4 (fun _ => sx i) g d d s
/-- INSHI (R45): rd[63:32] := zext(imm), rd[31:0] kept. -/
def insertHigh (v : BitVec 32) (x : Word) : Word := v ++ x.truncate 32
/-- INSHI (R45). -/
def execInshi (g : Guard) (d : Reg) (i : BitVec 14) (s : State) : Out :=
  withImmediate 4 (insertHigh (i.zeroExtend 32)) g d d s
/-- MULI (R45). -/
def execMuli (g : Guard) (d a : Reg) (i : BitVec 14) (s : State) : Out := withImmediate 4 (fun x => x * sx i) g d a s

/-- The pair of a prefix and ADDI (R26, R45). -/
def execAddiLong (g : Guard) (d a : Reg) (i : BitVec 32) (s : State) : Out :=
  withImmediate 8 (fun x => x + sx i) g d a s
/-- The pair of a prefix and ANDI (R26, R45). -/
def execAndiLong (g : Guard) (d a : Reg) (i : BitVec 32) (s : State) : Out :=
  withImmediate 8 (fun x => x &&& zx i) g d a s
/-- The pair of a prefix and ORI (R26, R45). -/
def execOriLong (g : Guard) (d a : Reg) (i : BitVec 32) (s : State) : Out :=
  withImmediate 8 (fun x => x ||| zx i) g d a s
/-- The pair of a prefix and XORI (R26, R45). -/
def execXoriLong (g : Guard) (d a : Reg) (i : BitVec 32) (s : State) : Out :=
  withImmediate 8 (fun x => x ^^^ zx i) g d a s
/-- The pair of a prefix and MOVI (R26, R45). -/
def execMoviLong (g : Guard) (d : Reg) (i : BitVec 32) (s : State) : Out := withImmediate 8 (fun _ => sx i) g d d s
/-- The pair of a prefix and INSHI (R26, R45). -/
def execInshiLong (g : Guard) (d : Reg) (i : BitVec 32) (s : State) : Out := withImmediate 8 (insertHigh i) g d d s
/-- The pair of a prefix and MULI (R26, R45). -/
def execMuliLong (g : Guard) (d a : Reg) (i : BitVec 32) (s : State) : Out :=
  withImmediate 8 (fun x => x * sx i) g d a s

/-- SHLI (R46). -/
def execShli (g : Guard) (d a : Reg) (n : BitVec 6) (s : State) : Out := unary (fun x => shlBy x n.toNat) g d a s
/-- SHRI (R46). -/
def execShri (g : Guard) (d a : Reg) (n : BitVec 6) (s : State) : Out := unary (fun x => shrBy x n.toNat) g d a s
/-- SARI (R46). -/
def execSari (g : Guard) (d a : Reg) (n : BitVec 6) (s : State) : Out := unary (fun x => sarBy x n.toNat) g d a s
/-- RORI (R46). -/
def execRori (g : Guard) (d a : Reg) (n : BitVec 6) (s : State) : Out := unary (fun x => rorBy x n.toNat) g d a s

/-! ## Compare and predicate instructions (R47, R48) -/

/-- CMP (R47); conditions 10 to 15 are illegal, whatever the guard (R23, R27). -/
def execCmp (g : Guard) (e : BitVec 3) (a b : Reg) (w : BitVec 1) (c : BitVec 4) (s : State) : Out :=
  if condLegal c then setsPred e g s fun s => compareAt w c (s.reg a) (s.reg b) else illegal s
/-- CMPI (R47). -/
def execCmpi (g : Guard) (e : BitVec 3) (a : Reg) (c : BitVec 4) (i : BitVec 10) (s : State) : Out :=
  if condLegal c then setsPred e g s fun s => compare c (s.reg a) (sx i) else illegal s
/-- PAND (R48). -/
def execPand (g : Guard) (e f h : BitVec 3) (s : State) : Out := setsPred e g s fun s => s.pred f && s.pred h
/-- POR (R48). -/
def execPor (g : Guard) (e f h : BitVec 3) (s : State) : Out := setsPred e g s fun s => s.pred f || s.pred h
/-- PXOR (R48). -/
def execPxor (g : Guard) (e f h : BitVec 3) (s : State) : Out :=
  setsPred e g s fun s => Bool.xor (s.pred f) (s.pred h)
/-- PANDN (R27, R48): pa and not pb. -/
def execPandn (g : Guard) (e f h : BitVec 3) (s : State) : Out := setsPred e g s fun s => s.pred f && !s.pred h
/-- PNOT (R48). -/
def execPnot (g : Guard) (e f : BitVec 3) (s : State) : Out := setsPred e g s fun s => !s.pred f
/-- RDP (R48): the predicate word, bit 0 as 1. -/
def execRdp (g : Guard) (d : Reg) (s : State) : Out :=
  guarded g 4 s fun s => result 4 s d ((s.predsOf s.tf).zeroExtend 64)
/-- WRP (R48): p1 to p7 := ra[7:1]. -/
def execWrp (g : Guard) (a : Reg) (s : State) : Out :=
  guarded g 4 s fun s => .next ((s.setPredsOf s.tf ((s.reg a).truncate 8)).retire 4)

end Sys2Proof.Machine
end

