-- ==== Sys2Proof/Machine/FloatOps.lean ====
section
/-! DEFINITION. Scalar floating point on thread cores (R50 to R55): FADD to FNEG in binary64 and binary32, FCMP, CVT. -/

namespace Sys2Proof.Machine

/-- A register's operand in a format: the low 32 bits for binary32 (R50). -/
def operandIn (f : FloatFmt) (w : Word) : Nat := w.toNat % 2 ^ (f.signBit + 1)

/-- What an arithmetic operation gives: the pattern, and whether it meets a subnormal (R54). -/
structure Fres where
  pat : Nat
  sub : Bool
  deriving DecidableEq, Repr

/-- A two-operand operation with the tininess of its exact result. -/
def fres2 (f : FloatFmt) (op : Nat → Nat → Nat) (tiny : Nat → Nat → Bool) (a b : Word) : Fres :=
  let x := operandIn f a
  let y := operandIn f b
  { pat := op x y, sub := f.isSub x || f.isSub y || tiny x y }

/-- Writes a result of the FP pipeline; one that meets a subnormal is served by the normaliser (R54, R226). -/
def floatResult (s : State) (d : Reg) (r : Fres) : Out :=
  let s1 := (s.setReg d (toWord r.pat)).retire 4
  .next (if r.sub then s1.useNormaliser else s1)

/-- A two-operand FP instruction. -/
def float2 (f : FloatFmt) (op : Nat → Nat → Nat) (tiny : Nat → Nat → Bool) (g : Guard) (d a b : Reg) (s : State) :
    Out :=
  guarded g 4 s fun s => floatResult s d (fres2 f op tiny (s.reg a) (s.reg b))

/-- FDIV and FSQRT: the divider, then the normaliser where a subnormal is met (R38, R54, R55, R226). The spec does not say in
which order the two shared units are asked for. [log 81] -/
def floatDivided (cycles turns : Nat) (s : State) (d : Reg) (r : Fres) : Out :=
  let s1 := (s.setReg d (toWord r.pat)).retire 4
  .next (s1.useDivider cycles turns r.sub)

/-- FADD. -/
def execFadd (f : FloatFmt) (g : Guard) (d a b : Reg) (r : BitVec 2) (s : State) : Out :=
  float2 f (f.add (roundingOf r)) (f.addTiny (roundingOf r)) g d a b s

/-- FSUB. -/
def execFsub (f : FloatFmt) (g : Guard) (d a b : Reg) (r : BitVec 2) (s : State) : Out :=
  float2 f (f.sub (roundingOf r)) (fun x y => f.tiny ((f.value x).add (roundingOf r) (f.value y).neg)) g d a b s

/-- FMUL. -/
def execFmul (f : FloatFmt) (g : Guard) (d a b : Reg) (r : BitVec 2) (s : State) : Out :=
  float2 f (f.mul (roundingOf r)) (fun x y => f.tiny ((f.value x).mul (f.value y))) g d a b s

/-- FDIV: the divider for 32 or 16 cycles, 7 or 3 forfeited turns (Table 2 of R38). -/
def execFdiv (f : FloatFmt) (g : Guard) (d a b : Reg) (r : BitVec 2) (s : State) : Out :=
  guarded g 4 s fun s =>
    let (c, t) := if f = f64 then (32, 7) else (16, 3)
    floatDivided c t s d (fres2 f (f.div (roundingOf r)) f.divTiny (s.reg a) (s.reg b))

/-- FSQRT. -/
def execFsqrt (f : FloatFmt) (g : Guard) (d a : Reg) (r : BitVec 2) (s : State) : Out :=
  guarded g 4 s fun s =>
    let (c, t) := if f = f64 then (32, 7) else (16, 3)
    let x := operandIn f (s.reg a)
    floatDivided c t s d { pat := f.sqrt (roundingOf r) x, sub := f.isSub x }

/-- FMA: rd + ra × rb. -/
def execFma (f : FloatFmt) (g : Guard) (d a b : Reg) (r : BitVec 2) (s : State) : Out :=
  guarded g 4 s fun s =>
    let z := operandIn f (s.reg d)
    let x := operandIn f (s.reg a)
    let y := operandIn f (s.reg b)
    let exact := (f.value z).add (roundingOf r) ((f.value x).mul (f.value y))
    floatResult s d { pat := f.fma (roundingOf r) z x y, sub := f.isSub x || f.isSub y || f.isSub z || f.tiny exact }

/-- FMIN, FMAX, FABS and FNEG use no normaliser (R52). -/
def plain2 (f : FloatFmt) (op : Nat → Nat → Nat) (g : Guard) (d a b : Reg) (s : State) : Out :=
  guarded g 4 s fun s => result 4 s d (toWord (op (operandIn f (s.reg a)) (operandIn f (s.reg b))))

/-- FABS and FNEG. -/
def plain1 (f : FloatFmt) (op : Nat → Nat) (g : Guard) (d a : Reg) (s : State) : Out :=
  guarded g 4 s fun s => result 4 s d (toWord (op (operandIn f (s.reg a))))

/-- FADD.f64 (R52). -/
def execFaddF64 (g : Guard) (d a b : Reg) (r : BitVec 2) (s : State) : Out := execFadd f64 g d a b r s
/-- FSUB.f64 (R52). -/
def execFsubF64 (g : Guard) (d a b : Reg) (r : BitVec 2) (s : State) : Out := execFsub f64 g d a b r s
/-- FMUL.f64 (R52). -/
def execFmulF64 (g : Guard) (d a b : Reg) (r : BitVec 2) (s : State) : Out := execFmul f64 g d a b r s
/-- FDIV.f64 (R52). -/
def execFdivF64 (g : Guard) (d a b : Reg) (r : BitVec 2) (s : State) : Out := execFdiv f64 g d a b r s
/-- FSQRT.f64 (R52). -/
def execFsqrtF64 (g : Guard) (d a : Reg) (r : BitVec 2) (s : State) : Out := execFsqrt f64 g d a r s
/-- FMA.f64 (R52). -/
def execFmaF64 (g : Guard) (d a b : Reg) (r : BitVec 2) (s : State) : Out := execFma f64 g d a b r s
/-- FMIN.f64 (R52). -/
def execFminF64 (g : Guard) (d a b : Reg) (s : State) : Out := plain2 f64 f64.min g d a b s
/-- FMAX.f64 (R52). -/
def execFmaxF64 (g : Guard) (d a b : Reg) (s : State) : Out := plain2 f64 f64.max g d a b s
/-- FABS.f64 (R52). -/
def execFabsF64 (g : Guard) (d a : Reg) (s : State) : Out := plain1 f64 f64.abs g d a s
/-- FNEG.f64 (R52). -/
def execFnegF64 (g : Guard) (d a : Reg) (s : State) : Out := plain1 f64 f64.flip g d a s
/-- FADD.f32 (R52). -/
def execFaddF32 (g : Guard) (d a b : Reg) (r : BitVec 2) (s : State) : Out := execFadd f32 g d a b r s
/-- FSUB.f32 (R52). -/
def execFsubF32 (g : Guard) (d a b : Reg) (r : BitVec 2) (s : State) : Out := execFsub f32 g d a b r s
/-- FMUL.f32 (R52). -/
def execFmulF32 (g : Guard) (d a b : Reg) (r : BitVec 2) (s : State) : Out := execFmul f32 g d a b r s
/-- FDIV.f32 (R52). -/
def execFdivF32 (g : Guard) (d a b : Reg) (r : BitVec 2) (s : State) : Out := execFdiv f32 g d a b r s
/-- FSQRT.f32 (R52). -/
def execFsqrtF32 (g : Guard) (d a : Reg) (r : BitVec 2) (s : State) : Out := execFsqrt f32 g d a r s
/-- FMA.f32 (R52). -/
def execFmaF32 (g : Guard) (d a b : Reg) (r : BitVec 2) (s : State) : Out := execFma f32 g d a b r s
/-- FMIN.f32 (R52). -/
def execFminF32 (g : Guard) (d a b : Reg) (s : State) : Out := plain2 f32 f32.min g d a b s
/-- FMAX.f32 (R52). -/
def execFmaxF32 (g : Guard) (d a b : Reg) (s : State) : Out := plain2 f32 f32.max g d a b s
/-- FABS.f32 (R52). -/
def execFabsF32 (g : Guard) (d a : Reg) (s : State) : Out := plain1 f32 f32.abs g d a s
/-- FNEG.f32 (R52). -/
def execFnegF32 (g : Guard) (d a : Reg) (s : State) : Out := plain1 f32 f32.flip g d a s

/-- FCMP (R49); conditions 5 to 7 are illegal, whatever the guard. -/
def execFcmp (g : Guard) (e : BitVec 3) (a b : Reg) (t : BitVec 1) (c : BitVec 3) (s : State) : Out :=
  if c.toNat ≤ 4 then setsPred e g s fun s => fcmpBits t c.toNat (s.reg a) (s.reg b) else illegal s

/-! ## CVT (R53) -/

/-- The float format that a type code of CVT names: 4 f32, 5 f64, 6 bf16 (R27). -/
def cvtFloat (t : Nat) : Option FloatFmt :=
  match t with
  | 4 => some f32
  | 5 => some f64
  | 6 => some bf16
  | _ => none

/-- An integer source of CVT: 0 i32, 1 i64, 2 n32, 3 n64. -/
def cvtInt (t : Nat) (w : Word) : Int :=
  match t with
  | 0 => signed 32 w.toNat
  | 1 => w.toInt
  | 2 => (w.toNat % 2 ^ 32 : Nat)
  | _ => (w.toNat : Int)

/-- The range of an integer destination of CVT. -/
def cvtRange (t : Nat) : Int × Int :=
  match t with
  | 0 => (-(2 ^ 31), 2 ^ 31 - 1)
  | 1 => (-(2 ^ 63), 2 ^ 63 - 1)
  | 2 => (0, 2 ^ 32 - 1)
  | _ => (0, 2 ^ 64 - 1)

/-- CVT from type src to type dst: the value of rd and whether a subnormal is met (R53, R54). -/
def convert (rm : Rounding) (src dst : Nat) (w : Word) : Word × Bool :=
  match cvtFloat src, cvtFloat dst with
  | some f, some h =>
    let v := operandIn f w
    (toWord (convertFloat f h rm v), f.isSub v || h.tiny (f.value v))
  | some f, none =>
    let v := operandIn f w
    let (lo, hi) := cvtRange dst
    (ofInt ((f.value v).toIntSat rm lo hi), f.isSub v)
  | none, some h => (toWord (h.round rm (FVal.ofInt (cvtInt src w))), false)
  | none, none => (0, false)

/-- CVT (R53); a pair that R27 does not list is illegal, whatever the guard. -/
def execCvt (g : Guard) (d a : Reg) (r : BitVec 2) (src dst : BitVec 4) (s : State) : Out :=
  if cvtLegal r src dst then
    guarded g 4 s fun s =>
      let (v, sub) := convert (roundingOf r) src.toNat dst.toNat (s.reg a)
      let s1 := (s.setReg d v).retire 4
      .next (if sub then s1.useNormaliser else s1)
  else illegal s

end Sys2Proof.Machine
end

