-- ==== Sys2Proof/Machine/Access.lean ====
section
/-! DEFINITION. Data accesses: the checks of R74 in their order, the store queue (R77, R78, R259), targets and what performs
a write there (R255, R257), the switch tier's routes and checks (R280 to R285), and migration (R244). -/

namespace Sys2Proof.Machine

/-! ## Acquires and releases (R261, R265) -/

/-- An acquire at a level: above 1 it invalidates the core's L1 by generation (R258, R261). -/
def State.acquire (s : State) (c : CoreRef) (level : Nat) : State := if level ≤ 1 then s else s.l1Clear c

/-- Whether a release or fence at a level counts the context's SPAWNU updates (R261, R267). -/
def countsUpdates (c : CoreRef) (level : Nat) : Bool := decide (4 ≤ effectiveLevel c level)

/-- The acting context waits until no marked entry stands in its store queue (R80); entries behind the mark do not hold it. -/
def whenUnmarked (s : State) (k : State → Out) : Out :=
  if s.me.stores.any fun e => e.mark then .next (s.pause .again) else k s

/-- MARK's effect: later loads wait for every store now in the queue (R80). -/
def State.markStores (s : State) : State :=
  s.modCtx s.tf fun c => { c with stores := c.stores.map fun e => { e with mark := true } }

/-! ## Targets (R255) -/

/-- Where an offset of a switch stands in `tier`. -/
def tierAddr (k off : Nat) : Nat := k * 2 ^ 38 + off

/-- A switch whose bank takes part in accesses: it is up and not being filled (R283, R288). -/
def State.serves (s : State) (k : Nat) : Bool := (s.switch k).up && !(s.switch k).filling

/-- The primary of pair (2j, 2j + 1): 2j while it lives, and 2j + 1 otherwise (R283, R288). -/
def State.primary (s : State) (j : Nat) : Option Nat :=
  if s.serves (2 * j) then some (2 * j) else if s.serves (2 * j + 1) then some (2 * j + 1) else none

/-- Writes bytes to a switch's bank. -/
def State.tierSet (s : State) (k off : Nat) (bs : List Byte) : State :=
  { s with tier := s.tier.setBytes (tierAddr k off) bs }

/-- Writes bytes of a mirrored range on every live member (R283). -/
def State.mirrorSet (s : State) (k off : Nat) (bs : List Byte) : State :=
  let j := k / 2
  let s1 := if s.serves (2 * j) then s.tierSet (2 * j) off bs else s
  if s.serves (2 * j + 1) then s1.tierSet (2 * j + 1) off bs else s1

/-- Reads n bytes at a target. -/
def State.targetGet (s : State) (x : Target) (n : Nat) : List Byte :=
  match x with
  | .pool c off => s.pool.getBytes (c.poolBase + off) n
  | .dram d pa _ => s.dramGet d pa n
  | .tier k _ off => s.tier.getBytes (tierAddr k off) n

/-- A store to the generation word of the firewall table makes the routers of a device that has booted reload it within 4,096
cycles (R355, R357). -/
def State.noteGeneration (s : State) (d pa n : Nat) : State :=
  let g := (s.dev d).config.fwbase + 4096
  if (s.dev d).bootStatus = 0 ∧ pa ≤ g ∧ g < pa + n then s.within 4096 .firewallReload (.dev d) else s

/-- Performs a write at a target; `c` is the core, if a core's context made it, whose L1 copy it updates
(R257, R258). Nothing is performed on a switch that has failed (R278). -/
def State.targetSet (s : State) (c : Option CoreRef) (x : Target) (bs : List Byte) : State :=
  match x with
  | .pool p off => { s with pool := s.pool.setBytes (p.poolBase + off) bs }
  | .dram d pa va =>
    let s1 := (s.dramSet d pa bs).noteGeneration d pa bs.length
    match c with
    | some k => s1.modCore k fun v => v.l1Update va.toNat bs
    | none => s1
  | .tier k mir off => if mir then s.mirrorSet k off bs else if (s.switch k).up then s.tierSet k off bs else s

/-! ## Moving lines (R310, R311) -/

/-- A device's interleave registers with one of them changed (R307, R310). -/
def Device.withReg (d : Device) (r : Nat) (v : Word) : Device :=
  if 0x40 ≤ r ∧ r < 0x60 then
    (if r % 2 = 0 then { d with domB := d.domB.put ((r - 0x40) / 2) v } else { d with domL := d.domL.put ((r - 0x40) / 2) v })
  else { d with hmask := d.hmask.put (r - 0x20) v }

/-- Whether a line moves under a change that has passed P (R310). -/
def State.moving (s : State) (d pa : Nat) : Bool :=
  match (s.dev d).change with
  | some c => c.pending && (s.dev d).home pa != ((s.dev d).withReg c.reg c.value).home pa
  | none => false

/-- The physical addresses of the table entries that a walk of an address reads, level by level (R316). -/
def State.walkReads (s : State) (d va : Nat) : List (Nat × Nat × Nat) → Nat → List Nat
  | [], _ => []
  | (lo, n, _) :: rest, tab =>
    let a := tab + 8 * (va / 2 ^ lo % 2 ^ n)
    let e := toWord (s.dramNum d a 8)
    a :: (if wbits e 63 1 = 1 ∧ wbits e 62 1 = 0 then s.walkReads d va rest (wbits e 8 31 * 256) else [])

/-- Whether a request must wait for its walk until X: no station has its leaf, and an entry that the walk reads lies in a moving
line (R313). -/
def State.walkMoves (s : State) (d : Nat) (space : BitVec 16) (va : Nat) : Bool :=
  let root := (s.dev d).config.spbase + 16 * space.toNat
  ((s.dev d).change.any fun c => c.pending) && ((s.dev d).cached space va).isNone
    && (root :: s.walkReads d va walkLevels (wbits (toWord (s.dramNum d root 8)) 16 23 * 2 ^ 16)).any fun a => s.moving d a

/-- The acting context's access to device memory goes on once its walk can (R313). -/
def whenWalked (s : State) (d : Nat) (va : Word) (k : State → Out) : Out :=
  if s.walkMoves d s.me.space va.toNat then .next (s.pause .again) else k s

/-- Whether an access of n bytes at an address by a master class meets a line that moves, or a walk that waits for one
(R313). -/
def State.linesMove (s : State) (d : Nat) (space : BitVec 16) (use : Use) (cls va n : Nat) : Bool :=
  (List.range (if n = 0 then 0 else (va + n - 1) / 128 - va / 128 + 1)).any fun k =>
    let a := Nat.max va ((va / 128 + k) * 128)
    s.walkMoves d space a || (match s.translate d space a use cls false with
      | .error _ => false
      | .ok pa => s.moving d pa)

/-- Whether a write meets a line that moves. -/
def State.storeMoves (s : State) (d : Nat) (space : BitVec 16) (cls va n : Nat) : Bool := s.linesMove d space .write cls va n

/-- A request of a context for a moving line is held, and answered MOVED at X (R311). -/
def State.holdMoved (s : State) (d : Nat) (t : CtxRef) : State :=
  s.modDev d fun v => if v.moved.contains t then v else { v with moved := v.moved ++ [t] }

/-- Whether a target is a moving line. -/
def State.targetMoves (s : State) (x : Target) : Bool :=
  match x with
  | .dram d pa _ => s.moving d pa
  | _ => false

/-! ## The store queue (R77, R78, R259) -/

/-- The byte that a queue entry holds for the i-th byte of a target, if it holds one. -/
def StoreEntry.byteFor (e : StoreEntry) (x : Target) (i : Nat) : Option Byte :=
  let look (base a : Nat) : Option Byte := if a + i < base then none else e.bytes[a + i - base]?
  match e.target, x with
  | .pool c o, .pool c' o' => if c = c' then look o o' else none
  | .dram d a _, .dram d' a' _ => if d = d' then look a a' else none
  | .tier k _ o, .tier k' _ o' => if k = k' then look o o' else none
  | _, _ => none

/-- The youngest queued byte, else the byte of memory (R78). -/
def youngest (q : List StoreEntry) (x : Target) (i : Nat) (b : Byte) : Byte :=
  q.foldl (fun v e => (e.byteFor x i).getD v) b

/-- The value a load of a context takes: queued bytes of its own stores over the bytes of memory (R78). -/
def overlay (q : List StoreEntry) (x : Target) : Nat → List Byte → List Byte
  | _, [] => []
  | i, b :: bs => youngest q x i b :: overlay q x (i + 1) bs

/-- Whether every byte of a load stands in the context's own queue. -/
def allQueued (q : List StoreEntry) (x : Target) (n : Nat) : Bool :=
  (List.range n).all fun i => q.any fun e => (e.byteFor x i).isSome

/-- Two entries have one target in the sense of R255: a pool, a home slice, a bank. -/
def State.sameTarget (s : State) (x y : Target) : Bool :=
  match x, y with
  | .pool c _, .pool c' _ => c == c'
  | .dram d a _, .dram d' a' _ => d == d' && (s.dev d).home a == (s.dev d).home a'
  | .tier k _ o, .tier k' _ o' => k == k' && o / 2 ^ 21 % 64 == o' / 2 ^ 21 % 64
  | _, _ => false

/-- The positions of the entries that may be performed next: those with no earlier entry of their target (R259). -/
def State.performable (s : State) (q : List StoreEntry) : List Nat :=
  (List.range q.length).filter fun i =>
    match q[i]? with
    | none => false
    | some e => !((q.take i).any fun f => s.sameTarget f.target e.target)

/-- Performs a store of a context at its target; one to a mirrored range sends the thread's state after it to the partner
(R284). -/
def State.performEntry (s : State) (t : CtxRef) (e : StoreEntry) : State :=
  let s1 := s.targetSet (some t.core) e.target e.bytes
  match e.after with
  | some v => s1.modCtx t fun c => { c with copy := some v }
  | none => s1

/-- Performs the entry at a position of a context's store queue and takes it out. -/
def State.performAt (s : State) (t : CtxRef) (i : Nat) : State :=
  match (s.ctx t).stores[i]? with
  | none => s
  | some e => (s.performEntry t e).modCtx t fun c => { c with stores := c.stores.eraseIdx i }

/-- Performs those of a context's queued stores that satisfy a test, in order. -/
def State.flush (s : State) (t : CtxRef) (p : StoreEntry → Bool) : State :=
  let q := (s.ctx t).stores
  ((q.filter p).foldl (fun st e => st.performEntry t e) s).modCtx t fun c => { c with stores := q.filter fun e => !p e }

/-- Performs a context's queued stores to pools, in order (R62, R259). -/
def State.flushPool (s : State) (t : CtxRef) : State :=
  s.flush t fun e => match e.target with
    | .pool _ _ => true
    | _ => false

/-- Performs a context's queued stores to a target's unit first: accesses to one word keep program order (R78, R259). -/
def State.flushTarget (s : State) (t : CtxRef) (x : Target) : State := s.flush t fun e => s.sameTarget e.target x

/-- Whether an access of a context to a target must wait for X of an interleave change: its line moves, or that of a queued
store which must be performed before it (R259, R311). -/
def State.waitsForX (s : State) (t : CtxRef) (x : Target) : Bool :=
  s.targetMoves x || (s.ctx t).stores.any fun e => s.sameTarget e.target x && s.targetMoves e.target

/-- Whether a load of n bytes at a target passes a queued store to its 8-byte word: one of whose bytes the load does not take
all from the queue (R78). -/
def passesStore (q : List StoreEntry) (x : Target) (n : Nat) : Bool :=
  let word : Target := match x with
    | .pool c o => .pool c (o / 8 * 8)
    | .dram d a va => .dram d (a / 8 * 8) va
    | .tier k m o => .tier k m (o / 8 * 8)
  !allQueued q x n && (List.range 8).any fun i => q.any fun e => (e.byteFor word i).isSome

/-- A load never passes a queued store to its 8-byte word: that store is performed first (R78). -/
def State.orderWord (s : State) (t : CtxRef) (x : Target) (n : Nat) : State :=
  if passesStore (s.ctx t).stores x n then s.flushTarget t x else s

/-- A store of the acting context enters its queue (R77). One to a word of its own workspace is performed before the
context's next instruction reads its registers (R20, R36). [log 20] -/
def State.pushStore (s : State) (x : Target) (bs : List Byte) : State :=
  let t := s.tf
  let own := match x with
    | .pool c off => c == t.core && decide ((s.ctx t).wp.toNat ≤ off) && decide (off < (s.ctx t).wp.toNat + 160)
    | _ => false
  if own then (s.flushPool t).targetSet (some t.core) x bs
  else
    let after : Option Traveller := match x with
      | .tier _ true _ => some (s.traveller t (s.ctx t).pc)
      | _ => none
    let e : StoreEntry :=
      { target := x, bytes := bs, issued := s.wcc, space := (s.ctx t).space, after := after, mark := false }
    let s1 := s.modCtx t fun c => { c with stores := c.stores ++ [e] }
    let (k, s2) := s1.pick 4096
    s2.later .storePerformed (.ctx t k)

/-! ## Migration (R91, R244) -/

/-- Whether a thread core refuses the caravans of a context: it runs another space (R244), or the caravan is one of space 0 from
outside the Phoub column (R356). -/
def State.spaceRefused (s : State) (t : CtxRef) (dest : CoreRef) : Bool :=
  dest.isThread && (decide ((s.core dest).space ≠ (s.ctx t).space)
    || (decide ((s.ctx t).space = 0) && !s.inColumn (s.homeOf t).core))

/-- The thread leaves for a core and goes on there at `pc`; a thread core of another space refuses it (R244), and a
destination on another device that no valid path reaches refuses the access (R296, R325). -/
def travel (s : State) (dest : CoreRef) (pc addr : Word) (mirrored : Bool) : Out :=
  if s.spaceRefused s.tf dest then trapOut s 20 addr
  else
    match s.tf.core.dev, dest.dev with
    | some d, some e => if d ≠ e ∧ s.through s.tf.core dest = none then trapOut s 30 addr else migrate s dest pc addr mirrored
    | _, _ => migrate s dest pc addr mirrored

/-! ## The switch tier (R280 to R285) -/

/-- Whether an allocation is live (R285, R286). -/
def State.allocLive (s : State) (a : Alloc) : Bool :=
  !a.freed && if a.mir then s.pairInc (a.switch / 2) == a.inc
    else (s.switch a.switch).up && (s.switch a.switch).inc == a.inc

/-- Whether an offset of a switch lies in an allocation. -/
def Alloc.covers (a : Alloc) (k off : Nat) : Bool :=
  (if a.mir then a.switch == k / 2 * 2 else a.switch == k) && decide (a.off ≤ off) && decide (off < a.off + a.size)

/-- The latest allocation that an offset of a switch lies in: the live one, if one is live (R281, R285). -/
def State.allocAt (s : State) (k off : Nat) : Option Alloc := s.allocs.find? fun a => a.covers k off

/-- Where a tier access runs, or the cause with which it is refused without a departure. -/
inductive TierRoute where
  | go (c : CoreRef) (mir : Bool)
  | stop (cause : Nat)
  deriving DecidableEq, Repr

/-- The switch core beside a bank (R281). -/
def bankCore (k off : Nat) : CoreRef := .switch k (off / 2 ^ 21 % 64)

/-- The device whose thread a context runs. -/
def State.homeDev (s : State) (t : CtxRef) : Nat := ((s.homeOf t).core.dev).getD 0

/-- Where an access to the tier goes (R277, R281, R283, R285). -/
def State.tierRoute (s : State) (t : CtxRef) (k off : Nat) : TierRoute :=
  let d := s.homeDev t
  let plain : TierRoute := if s.noticed d k then .stop 26 else .go (bankCore k off) false
  match s.allocAt k off with
  | none => plain
  | some a =>
    if a.mir then
      match s.primary (k / 2) with
      | none => .stop 27
      | some p => if s.noticed d p then .stop 26 else .go (bankCore p off) true
    else plain

/-- The counter that governs a pointer: the pair's for a mirrored allocation, live or not, else the switch's (R285). -/
def State.governing (s : State) (k off : Nat) : Nat :=
  match s.allocAt k off with
  | some a => if a.mir then s.pairInc (k / 2) else (s.switch k).inc
  | none => (s.switch k).inc

/-- Whether an access of a space to a pointer completes with tier-stale or tier-loss (R281, R285). -/
def State.tierCheck (s : State) (space : BitVec 16) (k inc off : Nat) : Option Nat :=
  if inc ≠ s.governing k off then some 27
  else
    match s.allocAt k off with
    | none => some 26
    | some a => if !s.allocLive a ∨ space ≠ a.space then some 26 else none

/-- Whether an access would run on a switch that has failed and of whose failure the thread's device holds no notice yet: no
reply comes back from it (R277, R287). -/
def State.deadBank (s : State) (t : CtxRef) (k off : Nat) : Bool :=
  match s.tierRoute t k off with
  | .go (.switch p _) _ => !(s.switch p).up
  | _ => false

/-- The same for an address. -/
def State.silent (s : State) (t : CtxRef) (va : Word) : Bool :=
  match s.classify t va with
  | .tier k _ off => s.deadBank t k off
  | _ => false

/-! ## Aiming an access (R73, R74) -/

/-- Checks 2 to 5 of R74 for an access of n bytes that must be aligned to n; the cause of the first that fails. -/
def State.aim (s : State) (va : Word) (n : Nat) : Except Nat Place :=
  match s.classify s.tf va with
  | .bad c =>
    if c = causeAddress then .error causeAddress else if aligned va n then .error c else .error 2
  | p => if aligned va n then .ok p else .error 2

/-- The master class of an access to device memory: 5 through a window, else 0 (R321, R324). -/
def accessClass (remote : Bool) : Nat := if remote then 5 else 0

/-- Translates a device-memory access of a core, whose device is `dev`, to device d for a thread of a home core: the physical
address, or the cause and DETAIL of the trap or the failure (R317, R325). A window of space 0 is refused to a thread from outside
the Phoub column (R356). [log 112] -/
def State.reach (s : State) (core home : CoreRef) (dev d : Nat) (remote : Bool) (space : BitVec 16) (va : Word) (use : Use)
    (cls : Nat) (priv : Bool) : Except (Nat × Nat) Nat :=
  if remote ∧ s.path core dev d = none then .error (30, 0)
  else if remote ∧ space = 0 ∧ !s.inColumn home then .error (30, causeProtection)
  else
    match s.translate d space va.toNat use (if remote then 5 else cls) (priv && !remote) with
    | .ok pa => .ok pa
    | .error c => if remote then .error (30, c) else .error (c, 0)

/-- Translates a device-memory access of the acting context; the trap where it fails (R317, R325). -/
def State.translateAt (s : State) (va : Word) (d : Nat) (remote : Bool) (use : Use) : Except (Nat × Nat) Nat :=
  s.reach s.tf.core (s.homeOf s.tf).core (s.memDev s.tf) d remote s.me.space va use 0 s.me.priv

/-- A precise trap with DETAIL as an outcome. -/
def trapWith (s : State) (cd : Nat × Nat) (addr : Word) : Out := .next (s.trap cd.1 cd.2 addr)

/-- The acting context's access through a window takes its place in the order of its core's accesses to device d (R324). -/
def State.ask (s : State) (d : Nat) : State :=
  let (n, s1) := (s.useWay s.tf.core (s.memDev s.tf) d).number
  s1.modCtx s1.tf fun c => { c with asked := some (d, n) }

/-- The place of an update's address, as its issuer's core classes it (R89). -/
def State.updatePlace (s : State) (u : RemoteUpdate) : Place :=
  s.classifyAt u.core u.src.core (u.core.dev.getD (u.src.core.dev.getD 0)) u.va

/-- The device to whose memory an update goes through a window, if it does (R324). -/
def State.updateVia (s : State) (u : RemoteUpdate) : Option Nat :=
  match s.updatePlace u with
  | .dram d true _ => some d
  | _ => none

/-- Whether an access through a window of a core to a device, issued before number n, has not been performed: of one of its
contexts, or a SPAWNU update (R324). -/
def State.askedBefore (s : State) (c : CoreRef) (d n : Nat) : Bool :=
  ((List.range 16).any fun k =>
    match (s.ctx ⟨c, k⟩).asked with
    | some (e, m) => e == d && decide (m < n)
    | none => false)
  || s.agenda.any fun e => match e.2.2 with
    | .update v => v.core == c && decide (v.id < n) && s.updateVia v == some d
    | _ => false

/-- Whether an earlier access through a window of the same core to the same device has not been performed (R324). -/
def State.askedEarlier (s : State) (t : CtxRef) : Bool :=
  match (s.ctx t).asked with
  | none => false
  | some (d, n) => s.askedBefore t.core d n

/-- How an access to the tier by the acting context goes on: locally with the bank's target, or elsewhere. -/
def tierAccess (s : State) (va : Word) (k inc off : Nat) (here : Target → State → Out) : Out :=
  match s.tierRoute s.tf k off with
  | .stop c => trapOut s c va
  | .go c mir =>
    if c = s.tf.core then
      match s.tierCheck s.me.space k inc off with
      | some cause => trapOut s cause va
      | none => here (.tier (match c with
          | .switch p _ => p
          | _ => k) mir off) s
    else travel s c s.me.pc va mir

end Sys2Proof.Machine
end

