-- ==== Sys2Proof/Machine/Control.lean ====
section
/-! DEFINITION. Branches and calls (R63 to R65), counters (R66, R67), follow groups (R68, R69), ending and yielding (R70 to
R72). -/

namespace Sys2Proof.Machine

/-! ## Branches and calls (R63 to R65) -/

/-- The turns a branch forfeits beside its own (Table 9 of R63). -/
def branchExtra (h : BitVec 2) (disp : Int) (taken : Bool) : Nat :=
  match h.toNat with
  | 0 => if taken then 1 else 0
  | 1 => if taken then 0 else 1
  | _ => if -64 ≤ disp ∧ disp ≤ -1 then 0 else if taken then 0 else 1

/-- BR (R63): a false guard makes the branch not taken; hint 11 is illegal. -/
def execBr (g : Guard) (h : BitVec 2) (d : BitVec 20) (s : State) : Out :=
  if h = 3 then illegal s
  else
    let taken := s.guardHolds g
    let s1 := if taken then s.jump (branchTarget s.me.pc d) else s.retire 4
    .next (s1.forfeit (branchExtra h d.toInt taken))

/-- CALL (R64): w15 := the address after it. -/
def execCall (g : Guard) (d : BitVec 20) (s : State) : Out :=
  guarded g 4 s fun s =>
    let pc := s.me.pc
    .next ((s.setReg 15 (pc + 4)).jump (branchTarget pc d))

/-- A jump to a register's address, with one forfeited turn (Table 2 of R38): one that is not a multiple of 4 traps as
misaligned, and w15 is not written (R64). -/
def jumpTo (target : Word) (s : State) (k : State → State) : Out :=
  if aligned target 4 then .next (((k s).jump target).forfeit 1) else trapOut s 2 target

/-- RET (R64). -/
def execRet (g : Guard) (s : State) : Out := guarded g 4 s fun s => jumpTo (s.reg 15) s id
/-- JMPI (R64). -/
def execJmpi (g : Guard) (a : Reg) (s : State) : Out := guarded g 4 s fun s => jumpTo (s.reg a) s id
/-- CALLI (R64): the target is read before w15 is written. -/
def execCalli (g : Guard) (a : Reg) (s : State) : Out :=
  guarded g 4 s fun s => jumpTo (s.reg a) s fun s => s.setReg 15 (s.me.pc + 4)

/-! ## Counters (R66, R67) -/

/-- Partition k of the device whose counters a context reads. -/
def State.myPart (s : State) (k : Nat) : PartRef := ⟨s.memDev s.tf, k⟩

/-- WAITC.pcc (R66). -/
def execWaitcPcc (g : Guard) (a : Reg) (k : BitVec 3) (s : State) : Out :=
  guarded g 4 s fun s =>
    let p := s.part (s.myPart k.toNat)
    let target := s.reg a
    if !p.formed then trapOut s 12 0
    else if target.toNat ≤ p.pcc then .next (s.retire 4)
    else .next (s.park s.tf (.counter (some k.toNat) target))

/-- WAITC.wcc (R66). -/
def execWaitcWcc (g : Guard) (a : Reg) (s : State) : Out :=
  guarded g 4 s fun s =>
    let target := s.reg a
    if target.toNat ≤ s.wcc then .next (s.retire 4) else .next (s.park s.tf (.counter none target))

/-- RDCYC.pcc (R67): 0 for a partition that is not formed. -/
def execRdcycPcc (g : Guard) (d : Reg) (k : BitVec 3) (s : State) : Out :=
  guarded g 4 s fun s =>
    let p := s.part (s.myPart k.toNat)
    .next ((s.setReg d (toWord (if p.formed then p.pcc else 0))).retire 4)

/-- RDCYC.wcc (R67). -/
def execRdcycWcc (g : Guard) (d : Reg) (s : State) : Out :=
  guarded g 4 s fun s => .next ((s.setReg d (toWord s.wcc)).retire 4)

/-! ## Follow groups (R68) -/

/-- Whether a context holds a thread now: live and not away. -/
def State.present (s : State) (t : CtxRef) : Bool :=
  decide ((s.ctx t).mode ≠ .free) && decide ((s.ctx t).mode ≠ .away)

/-- follow-refused (R68). -/
def followRefused (s : State) : Out := trapOut s 13 0

/-- FOLLOW (Table 10 of R68). -/
def execFollow (g : Guard) (a : Reg) (s : State) : Out :=
  guarded g 4 s fun s =>
    let v := s.reg a
    let n := wbits v 0 4
    let l : CtxRef := ⟨s.tf.core, n⟩
    if wbits v 4 60 = 0 ∧ n ≠ s.tf.n ∧ s.present l ∧ s.me.leader = none ∧ s.followers s.tf.core s.tf.n = []
        ∧ (s.ctx l).leader = none ∧ (s.followers s.tf.core n).length < 3 then
      .next ((s.modCtx s.tf fun c => { c with leader := some n }).retire 4)
    else followRefused s

/-- DETACH (Table 10 of R68). -/
def execDetach (g : Guard) (s : State) : Out :=
  guarded g 4 s fun s =>
    let s1 := if s.me.leader ≠ none then s.leaveGroup s.tf else s.dissolveGroup s.tf
    .next (s1.retire 4)

/-- The context in which the thread of a home context stands now: itself, or the guest that runs for it. -/
def State.locate (s : State) (h : CtxRef) : Option CtxRef :=
  if (s.ctx h).mode = .away then
    (s.ctxs.find? fun e => decide (e.2.home = some h) && decide (e.2.mode ≠ .free)).map fun e => CtxRef.ofCode e.1
  else if (s.ctx h).mode = .free then none
  else some h

/-- REJOIN (Table 10 of R68): on the leader's core the issuer joins at once, else it migrates there and joins on arrival. A
leader that is in transit is waited for. An issuer that stands in a group, and a recorded leader that follows another one, are
refused, since a context belongs to at most one group. [log 21] -/
def execRejoin (g : Guard) (s : State) : Out :=
  guarded g 4 s fun s =>
    match s.rejoinOf s.tf with
    | none => followRefused s
    | some h =>
      if (s.ctx h).mode = .free then followRefused s
      else
        match s.locate h with
        | none => .next (s.pause .again)
        | some l =>
          if 3 ≤ (s.followers l.core l.n).length ∨ (s.ctx l).leader ≠ none ∨ s.me.leader ≠ none
              ∨ s.followers s.tf.core s.tf.n ≠ [] then followRefused s
          else if l.core = s.tf.core then
            .next (((s.modCtx s.tf fun c => { c with leader := some l.n }).setRejoin s.tf none).retire 4)
          else travel s l.core s.me.pc 0 false

/-! ## Ending and yielding (R70 to R72) -/

/-- The record of a failed update raises update-lost, precisely, and is cleared (R90, R278). -/
def whenNoFailure (s : State) (k : State → Out) : Out :=
  let h := s.homeOf s.tf
  match (s.ctx h).deferred with
  | none => k s
  | some (cause, addr) => .next ((s.modCtx h fun c => { c with deferred := none }).trap 24 cause addr)

/-- HALT and HALT.retain (R70, R71, R90): the queues drain, a deferred fault comes first, then the context is freed. -/
def halting (s : State) (tag : Word) : Out :=
  whenDrained s true fun s => whenNoFailure s fun s =>
    let s1 := if tag = 0 then s else
      s.modCore s.tf.core fun c => { c with retain := tag, retainJob := s.me.tjob }
    .next (s1.haltCtx s.tf)

/-- HALT (R70). -/
def execHalt (g : Guard) (s : State) : Out := guarded g 4 s fun s => halting s 0

/-- HALT.retain (R71): a tag of 0 makes it a plain HALT. -/
def execHaltRetain (g : Guard) (a : Reg) (s : State) : Out := guarded g 4 s fun s => halting s (s.reg a)

/-- YIELD (R72, R237): the context waits for every context now before it in the rotation to issue or leave. -/
def execYield (g : Guard) (s : State) : Out :=
  guarded g 4 s fun s =>
    let s1 := s.retire 4
    .next (s1.modCore s.tf.core fun c =>
      let ahead := c.rot.takeWhile fun n => n != s.tf.n
      { c with held := if ahead = [] then c.held else c.held ++ [(s.tf.n, ahead)] })

end Sys2Proof.Machine
end

