-- ==== Sys2Proof/Machine/LoadStore.lean ====
section
/-! DEFINITION. Loads and stores (R75 to R79), ordering points (R80, R265), cache maintenance (R81, R82, R314), and the
events that complete them. -/

namespace Sys2Proof.Machine

/-! ## The form of a load or store -/

/-- What a load or store names: the data register, the address register, the access size, sign extension, the
post-increment. -/
structure MemForm where
  d : Reg
  a : Reg
  z : BitVec 2
  x : BitVec 1
  pi : BitVec 1
  off : BitVec 10
  deriving DecidableEq, Repr

/-- The form of an instruction that loads or stores. -/
def memForm : Instr → Option MemForm
  | .ld _ d a z x i o => some ⟨d, a, z, x, i, o⟩
  | .ldAcq _ d a z x _ => some ⟨d, a, z, x, 0, 0⟩
  | .st _ d a z i o => some ⟨d, a, z, 0, i, o⟩
  | .stRel _ d a z _ => some ⟨d, a, z, 0, 0, 0⟩
  | _ => none

/-- The bytes a store writes: rd[size − 1:0] (R75). -/
def storeBytes (f : MemForm) (v : Word) : List Byte := leBytes (memSize f.z) v.toNat

/-! ## Loads -/

/-- A load of the acting context completes: the post-increment, rd, the acquire (R36, R75, R79). -/
def State.endLoad (s : State) (f : MemForm) (va : Word) (acq : Option Nat) (bytes : List Byte) : State :=
  let v := extendLoad (memSize f.z) (f.x == 1) (leNat bytes)
  let s1 := if f.pi = 1 then s.setReg f.a (va + memOffset f.z f.off) else s
  let s2 := s1.setReg f.d v
  let s3 := match acq with
    | some l => s2.acquire s.tf.core l
    | none => s2
  s3.retire 4

/-- The value of a load at a target, with the context's own queued bytes (R78). -/
def State.loadBytes (s : State) (x : Target) (n : Nat) : List Byte :=
  overlay s.me.stores x 0 (s.targetGet x n)

/-- The bytes that L1 gives a load of device memory (R258): thread cores only. -/
def State.l1Bytes (s : State) (va : Word) (n : Nat) : Option (List Byte) :=
  if s.tf.core.isThread then (s.core s.tf.core).l1Get va.toNat n else none

/-- A store queue with the device-memory entries placed by virtual address, as L1 knows their lines (R78, R258). -/
def byVirtual (q : List StoreEntry) : List StoreEntry :=
  q.map fun e => match e.target with
    | .dram d _ va => { e with target := .dram d va.toNat va }
    | _ => e

/-- The bound of a request or reply between a core and a pipe (R76, R177). -/
def pipeBound (c : CoreRef) (p : PipeRef) : Nat :=
  if c.dev = some p.dev ∧ c.die = p.p / 96 then 40 else 80

/-- A load or store of an oasis window goes to its pipe (R76, R270); `acq` is the level of an acquire. -/
def State.askPipe (s : State) (p : PipeRef) (b : Buf) (off n : Nat) (store : Option Word) (acq : Option Nat) : State :=
  let r : OasisReq :=
    { src := s.tf, space := s.me.space, pipe := p, buf := b, off := off, size := n, store := store, job := none }
  (s.park s.tf (.pipe acq)).within (pipeBound s.tf.core p) .oasisAccessArrival (.access r)

/-- A load of device memory that L1 does not serve: from the queue alone, or out of the rotation until the reply (R77). -/
def loadHome (f : MemForm) (va : Word) (acq : Option Nat) (d : Nat) (remote : Bool) (s : State) : Out :=
  whenWalked s d va fun s => match s.translateAt va d remote .read with
  | .error e => trapWith s e va
  | .ok pa =>
    let s1 := s.noteWalk d s.me.space va.toNat
    let x : Target := .dram d pa va
    if allQueued s.me.stores x (memSize f.z) then .next (s1.endLoad f va acq (s.loadBytes x (memSize f.z)))
    else
      let (k, s2) := (if remote then s1.ask d else s1).pick 4096
      .next ((s2.park s.tf (.load d pa va acq)).later .threadLoadReply (.ctx s.tf k))

/-- A load of a core's pool or of a bank, served at once behind the queued stores to its word (R77, R78). -/
def State.loadHere (s : State) (f : MemForm) (va : Word) (acq : Option Nat) (x : Target) : State :=
  let s1 := s.orderWord s.tf x (memSize f.z)
  s1.endLoad f va acq (s1.loadBytes x (memSize f.z))

/-- A load of a form at an address; `acq` is the level of an acquire (Table 1 of R73, R75, R77). -/
def load (f : MemForm) (va : Word) (acq : Option Nat) (s : State) : Out :=
  whenUnmarked s fun s =>
    let n := memSize f.z
    match s.aim va n with
    | .error c => trapOut s c va
    | .ok (.pool c off) =>
      if c = s.tf.core then .next (s.loadHere f va acq (.pool c off)) else travel s c s.me.pc va false
    | .ok (.dram d remote _) =>
      let x : Target := .dram d va.toNat va
      match (if remote || passesStore (byVirtual s.me.stores) x n then none else s.l1Bytes va n) with
      | some bs => .next (s.endLoad f va acq (overlay (byVirtual s.me.stores) x 0 bs))
      | none => loadHome f va acq d remote s
    | .ok (.tier k inc off) => tierAccess s va k inc off fun x s => .next (s.loadHere f va acq x)
    | .ok (.window p (some b) off) => .next (s.askPipe p b off n none acq)
    | .ok (.window _ none _) => trapOut s 14 va
    | .ok (.bad c) => trapOut s c va

/-- LD (R75); sz = 11 with sx = 1 is illegal. -/
def execLd (g : Guard) (d a : Reg) (z : BitVec 2) (x i : BitVec 1) (o : BitVec 10) (s : State) : Out :=
  if z = 3 ∧ x = 1 then illegal s
  else guarded g 4 s fun s => load ⟨d, a, z, x, i, o⟩ (s.memAddr a z i o) none s

/-- A scope word in a register: bad-scope, precisely, when it breaks R32. -/
def withScope (s : State) (w : Word) (k : Nat → State → Out) : Out :=
  if scopeLegal w then k (scopeLevel w) s else trapOut s 7 0

/-- LD.ACQ (R75, R79). -/
def execLdAcq (g : Guard) (d a : Reg) (z : BitVec 2) (x : BitVec 1) (w : BitVec 4) (s : State) : Out :=
  if z = 3 ∧ x = 1 then illegal s
  else
    guarded g 4 s fun s => withScope s (s.reg w) fun level s =>
      load ⟨d, a, z, x, 0, 0⟩ (s.reg a) (some (effectiveLevel s.tf.core level)) s

/-! ## Stores -/

/-- A store of the acting context has been taken: the post-increment (R27), and on. -/
def State.endStore (s : State) (f : MemForm) (va : Word) : State :=
  (if f.pi = 1 then s.setReg f.a (va + memOffset f.z f.off) else s).retire 4

/-- A store of a form at an address (Table 1 of R73, R75, R77). -/
def store (f : MemForm) (va : Word) (s : State) : Out :=
  let n := memSize f.z
  let bs := storeBytes f (s.reg f.d)
  match s.aim va n with
  | .error c => trapOut s c va
  | .ok (.pool c off) =>
    if c = s.tf.core then .next ((s.endStore f va).pushStore (.pool c off) bs) else travel s c s.me.pc va false
  | .ok (.dram d remote ro) =>
    if remote && ro then trapOut s causeProtection va
    else
      whenWalked s d va fun s => match s.translateAt va d remote .write with
      | .error e => trapWith s e va
      | .ok pa =>
        let s1 := s.noteWalk d s.me.space va.toNat
        if remote then
          .next (((s1.ask d).park s.tf (.window d pa va bs)).later .windowStoreAck (.ctx s.tf 0))
        else .next ((s1.endStore f va).pushStore (.dram d pa va) bs)
  | .ok (.tier k inc off) => tierAccess s va k inc off fun x s => .next ((s.endStore f va).pushStore x bs)
  | .ok (.window p (some b) off) => .next (s.askPipe p b off n (some (toWord (leNat bs))) none)
  | .ok (.window _ none _) => trapOut s 14 va
  | .ok (.bad c) => trapOut s c va

/-- ST (R75). -/
def execSt (g : Guard) (d a : Reg) (z : BitVec 2) (i : BitVec 1) (o : BitVec 10) (s : State) : Out :=
  guarded g 4 s fun s => store ⟨d, a, z, 0, i, o⟩ (s.memAddr a z i o) s

/-- ST.REL (R75, R79, R261): after every earlier load and store, and from level 4 the SPAWNU updates. -/
def execStRel (g : Guard) (d a : Reg) (z : BitVec 2) (w : BitVec 4) (s : State) : Out :=
  guarded g 4 s fun s => withScope s (s.reg w) fun level s =>
    whenDrained s (countsUpdates s.tf.core level) fun s => store ⟨d, a, z, 0, 0, 0⟩ (s.reg a) s

/-! ## Ordering points (R80, R265) -/

/-- MARK (R80): one turn; later loads wait for the stores now queued. -/
def execMark (g : Guard) (s : State) : Out := guarded g 4 s fun s => .next (s.markStores.retire 4)

/-- FENCE (R80, R265); levels 0 and 1 act as MARK. -/
def execFence (g : Guard) (a : Reg) (s : State) : Out :=
  guarded g 4 s fun s => withScope s (s.reg a) fun level s =>
    if level ≤ 1 then .next (s.markStores.retire 4)
    else
      whenDrained s (countsUpdates s.tf.core level) fun s =>
        .next ((s.acquire s.tf.core (effectiveLevel s.tf.core level)).retire 4)

/-- The memory an address lies in, as DRAIN names them (R80): 0 own pool, 1 cluster, 2 hbm, 3 tier, 4 none. -/
def State.memoryOf (s : State) (t : CtxRef) (va : Word) : Nat :=
  match s.classify t va with
  | .pool c _ => if c = s.aliasCore t then 0 else 1
  | .dram _ _ _ => 2
  | .tier _ _ _ => 3
  | _ => 4

/-- Whether every completion that a DRAIN of a memory covers has finished (R80). -/
def State.drained (s : State) (t : CtxRef) (m bound : Nat) : Bool :=
  let e := (s.core t.core).copy
  let covers (c : EngineCommand) : Bool :=
    decide (c.id < bound) && s.memoryOf ⟨t.core, c.owner⟩ ((c.words[2]?).getD 0) == m
  !(e.fifo.any covers) && !(e.active.any covers)
    && !((s.ctx (s.homeOf t)).updates.any fun va => s.memoryOf t va == m)

/-- A DRAIN whose completions have finished raises a deferred fault that it covers (R80, R90), or is over. -/
def State.endDrain (s : State) (m : Nat) : Out :=
  let h := s.homeOf s.tf
  match (s.ctx h).deferred with
  | some (_, va) => if s.memoryOf s.tf va = m then whenNoFailure s fun s => .next (s.retire 4) else .next (s.retire 4)
  | none => .next (s.retire 4)

/-- DRAIN of a memory (R80): with nothing outstanding, one turn. -/
def drain (m : Nat) (g : Guard) (s : State) : Out :=
  guarded g 4 s fun s =>
    if s.drained s.tf m s.serial then s.endDrain m else .next (s.park s.tf (.drainMem m s.serial))

/-- DRAIN.pool (R80). -/
def execDrainPool (g : Guard) (s : State) : Out := drain 0 g s
/-- DRAIN.cluster (R80). -/
def execDrainCluster (g : Guard) (s : State) : Out := drain 1 g s
/-- DRAIN.hbm (R80). -/
def execDrainHbm (g : Guard) (s : State) : Out := drain 2 g s
/-- DRAIN.tier (R80). -/
def execDrainTier (g : Guard) (s : State) : Out := drain 3 g s

/-! ## Cache maintenance (R81, R82) -/

/-- The devices whose lines a walk of [va, va + n) may meet: the issuer's, and those of the windows that the range meets
(R82, R324). -/
def State.walkDevs (s : State) (t : CtxRef) (va n : Nat) : List Nat :=
  (s.memDev t :: ((s.core t.core).wins.filter fun w => wbits w 63 1 == 1 && decide (wbits w 24 26 * 2 ^ 30 < va + n)
    && decide (va < wbits w 24 26 * 2 ^ 30 + 2 ^ (30 + wbits w 50 4))).map fun w => wbits w 54 8).eraseDups

/-- A maintenance instruction of a context is in progress on those of some devices on which no change of the interleave registers
is: such a change waits for it; on the others it waits for X (R314). -/
def State.enterWalks (s : State) (t : CtxRef) (ds : List Nat) : State :=
  ds.foldl (fun st d =>
    if (st.dev d).change.isSome ∨ (st.dev d).walks.contains t then st
    else st.modDev d fun v => { v with walks := v.walks ++ [t] }) s

/-- A context's maintenance instruction is in progress nowhere any longer. -/
def State.leaveWalks (s : State) (t : CtxRef) : State :=
  { s with devs := s.devs.map fun e => (e.1, { e.2 with walks := e.2.walks.filter fun u => !(u == t) }) }

/-- A maintenance instruction of [va, va + n): as MARK first, then its context waits until each line is done (R82). From its issue
on it excludes the changes of the interleave registers (R314). An address that is not device memory traps whatever n is.
[log 80] -/
def maintain (priv : Bool) (va n : Word) (s : State) : Out :=
  if priv ∧ !s.me.priv then trapOut s 8 0
  else if !isDeviceMemory va then trapOut s causeAddress va
  else if 2 ^ 36 < n.toNat then trapOut s 11 0
  else if n = 0 then .next (s.retire 4)
  else
    whenDrained (s.enterWalks s.tf (s.walkDevs s.tf va.toNat n.toNat)) false fun s =>
      .next ((s.park s.tf (.reply va n)).later .maintenanceWalkDone (.ctx s.tf 0))

/-- CWB (R81). -/
def execCwb (g : Guard) (a : Reg) (s : State) : Out := guarded g 4 s fun s => maintain false (s.reg a) 1 s
/-- CINV (R81): privileged. -/
def execCinv (g : Guard) (a : Reg) (s : State) : Out := guarded g 4 s fun s => maintain true (s.reg a) 1 s
/-- CFLUSH (R81). -/
def execCflush (g : Guard) (a : Reg) (s : State) : Out := guarded g 4 s fun s => maintain false (s.reg a) 1 s
/-- CWBR (R81, R82). -/
def execCwbr (g : Guard) (a b : Reg) (s : State) : Out := guarded g 4 s fun s => maintain false (s.reg a) (s.reg b) s
/-- CINVR (R81, R82): privileged. -/
def execCinvr (g : Guard) (a b : Reg) (s : State) : Out := guarded g 4 s fun s => maintain true (s.reg a) (s.reg b) s
/-- CFLUSHR (R81, R82). -/
def execCflushr (g : Guard) (a b : Reg) (s : State) : Out := guarded g 4 s fun s => maintain false (s.reg a) (s.reg b) s
/-- L1INV (R81). -/
def execL1inv (g : Guard) (s : State) : Out := guarded g 4 s fun s => .next ((s.l1Clear s.tf.core).retire 4)

/-- What a maintenance instruction does to a line: 0 write back, 1 drop, 2 both. -/
def maintenanceKind : Instr → Nat
  | .cinv _ _ | .cinvr _ _ _ => 1
  | .cflush _ _ | .cflushr _ _ _ => 2
  | _ => 0

/-- The range of the maintenance instruction that a context has in progress: it drains its queue or waits for its walk (R82). -/
def State.maintained (s : State) (t : CtxRef) : Option (Word × Word) :=
  let u : State := { s with tf := t }
  let range := match (s.ctx t).cur with
    | some (.cwb _ a) | some (.cinv _ a) | some (.cflush _ a) => some (u.reg a, 1)
    | some (.cwbr _ a b) | some (.cinvr _ a b) | some (.cflushr _ a b) => some (u.reg a, u.reg b)
    | _ => none
  match (s.ctx t).mode with
  | .waiting (.reply va n) => range.map fun _ => (va, n)
  | .waiting (.drain _) => range
  | _ => none

/-- The maintenance instructions that waited for X of a device's change are in progress from X on (R314). -/
def State.enterWaiting (s : State) (d : Nat) : State :=
  s.ctxs.foldl (fun st e =>
    let t := CtxRef.ofCode e.1
    match s.maintained t with
    | some (va, n) => if (st.walkDevs t va.toNat n.toNat).contains d then st.enterWalks t [d] else st
    | none => st) s

/-- Does the lines of [va, va + n), which lie in one page, at their slices and in the issuing core's L1 (R81). -/
def State.maintainLines (s : State) (kind d pa va n : Nat) : State :=
  let lo := dramAddr d pa / 128
  let hi := (dramAddr d pa + n - 1) / 128
  let hit := (s.dirty.filter fun e => decide (lo ≤ e.1) && decide (e.1 ≤ hi)).map fun e => e.1
  let s1 := hit.foldl (fun st l => if kind = 1 then st.discard l else st.writeBack l) s
  if kind = 0 then s1
  else
    s1.modCore s.tf.core fun c =>
      { c with l1 := c.l1.filter fun l => !(decide (va / 128 ≤ l.line) && decide (l.line ≤ (va + n - 1) / 128)) }

/-- The device and the physical address of a page of a maintenance range, each page classed for itself, or the cause and
DETAIL (R73, R82, R324). -/
def State.maintainPage (s : State) (va : Nat) : Except (Nat × Nat) (Nat × Nat) :=
  match s.classify s.tf (toWord va) with
  | .dram d remote _ => (s.translateAt (toWord va) d remote .read).map fun pa => (d, pa)
  | _ => .error (causeAddress, 0)

/-- Walks a range page by page; the page at which translation fails, if one does (R82). -/
def State.maintainPages (s : State) (kind va n : Nat) : Nat → State × Option (Nat × Nat × Nat)
  | 0 => (s, none)
  | k + 1 =>
    if n = 0 then (s, none)
    else
      let room := (va / 65536 + 1) * 65536 - va
      let m := Nat.min room n
      match s.maintainPage va with
      | .error (c, x) => (s, some (c, x, va / 65536 * 65536))
      | .ok (d, pa) => (s.maintainLines kind d pa va m).maintainPages kind (va + m) (n - m) k

/-- MAINTENANCE_WALK_DONE (R82, R314): a walk that issued while an interleave change is in progress waits for its X. -/
def execMaintenanceWalkDone (s : State) : Out :=
  match s.ev with
  | .ctx t _ =>
    match (s.ctx t).mode, (s.ctx t).cur with
    | .waiting (.reply va n), some i =>
      let s := { s with tf := t }
      let ds := s.walkDevs t va.toNat n.toNat
      let s := s.enterWalks t ds
      if !ds.all fun d => (s.dev d).walks.contains t then .next (s.later .maintenanceWalkDone (.ctx t 0))
      else
        let s0 := s.leaveWalks t
        let one := match i with
          | .cwb _ _ | .cinv _ _ | .cflush _ _ => true
          | _ => false
        let (s1, r) := s0.maintainPages (maintenanceKind i) va.toNat n.toNat (pagesOf va.toNat n.toNat)
        match r with
        | none => .next (s1.retire 4)
        | some (c, x, page) => .next (s1.trap c x (if one then va else toWord page))
    | _, _ => .next s
  | _ => .next s

/-! ## Events that complete loads, stores and drains -/

/-- Fills an L1 line with the bytes the home slice serves; the line that `pick` names is replaced when L1 is full
(R258). -/
def Core.l1Fill (c : Core) (line : Nat) (bytes : List Byte) (pick : Nat) : Core :=
  if c.l1Lines = 0 then c
  else
    let old := c.l1.filter fun l => !(l.line == line)
    let kept := if old.length < c.l1Lines then old else old.eraseIdx (pick % old.length)
    { c with l1 := kept ++ [{ line := line, bytes := bytes }] }

/-- The address of a mapped access (Table 6 of R8). -/
def windowAddr (r : OasisReq) : Word :=
  toWord (0xFD * 2 ^ 48 + r.pipe.p * 2 ^ 32 + (match r.buf with
    | .w => 0
    | .a => 1
    | .c => 2) * 2 ^ 30 + r.off)

/-- THREAD_LOAD_REPLY (R76, R77, R258): the home slice serves the load; a line of the core's own device fills its L1. The
reply of a pipe brings the value it served. -/
def execThreadLoadReply (s : State) : Out :=
  match s.ev with
  | .ctx t pick =>
    match (s.ctx t).mode, ((s.ctx t).cur).bind memForm with
    | .waiting (.load d pa va acq), some f =>
      let x : Target := .dram d pa va
      if s.askedEarlier t then .next (s.dueAt (s.wcc + 1) .threadLoadReply (.ctx t pick))
      else if s.moving d pa || (passesStore (s.ctx t).stores x (memSize f.z) && s.waitsForX t x) then .next (s.holdMoved d t)
      else
        let s := ({ s with tf := t } : State).orderWord t x (memSize f.z)
        let bytes := s.loadBytes x (memSize f.z)
        let fills := t.core.isThread && t.core.dev == some d
        let line := s.dramGet d (pa / 128 * 128) 128
        let s1 := if fills then s.modCore t.core fun c => c.l1Fill (va.toNat / 128) line pick else s
        .next (s1.endLoad f va acq bytes)
    | _, _ => .next s
  | .access r =>
    match (s.ctx r.src).mode, ((s.ctx r.src).cur).bind memForm with
    | .waiting (.pipe acq), some f =>
      .next (({ s with tf := r.src } : State).endLoad f (windowAddr r) acq
        (leBytes (memSize f.z) ((r.store.getD 0).toNat)))
    | _, _ => .next s
  | _ => .next s

/-- The device whose change a queue entry for a moving line meets. -/
def State.heldFor (s : State) (e : StoreEntry) : Option Nat :=
  match e.target with
  | .dram d pa _ => if s.moving d pa then some d else none
  | _ => none

/-- Whether a queue entry keeps those behind it from being dispatched: its line moves, and it was not dispatched itself before P,
because it was issued after P, or because the dispatch, whose cycle is free, had not come (R311). -/
def State.blocksQueue (s : State) (e : StoreEntry) (choice : Bool) : Bool :=
  match (s.heldFor e).bind fun d => (s.dev d).change with
  | some c => !(decide (e.issued < c.p) && choice)
  | none => false

/-- The positions of a context's queue that may be performed now, and the device whose change holds an entry of it (R259,
R311). A paired guest's stores are performed in order, each with the state after it (R284). -/
def State.mayPerform (s : State) (t : CtxRef) (choice : Bool) : List Nat × Option Nat :=
  let q := (s.ctx t).stores
  let free := (q.takeWhile fun e => !s.blocksQueue e choice).length
  let ok := (s.performable q).filter fun i => decide (i < free) && (i == 0 || !(s.ctx t).paired)
    && (match q[i]? with
      | some e => (s.heldFor e).isNone
      | none => false)
  (ok, q.findSome? s.heldFor)

/-- STORE_PERFORMED (R257, R258, R259): one entry of a store queue is performed at its target. From P to X an entry for
a moving line is held, and so are the entries behind it that had not been dispatched (R311). -/
def execStorePerformed (s : State) : Out :=
  match s.ev with
  | .ctx t pick =>
    let (ok, held) := s.mayPerform t (pick / 64 % 2 == 0)
    match ok[pick % ok.length]?, held with
    | some i, _ => .next (s.performAt t i)
    | none, some d => .next (s.holdMoved d t)
    | none, none => .next s
  | _ => .next s

/-- Whether an instruction waits for a network FAA on a task counter (R100, R230). -/
def isCounterOp : Instr → Bool
  | .spawn _ _ | .taskend _ => true
  | _ => false

/-- WINDOW_STORE_ACK (R324, R325): the target performs the store and acknowledges it. -/
def execWindowStoreAck (s : State) : Out :=
  match s.ev with
  | .ctx t _ =>
    match (s.ctx t).mode, ((s.ctx t).cur).bind memForm with
    | .waiting (.window d pa va bs), some f =>
      if s.askedEarlier t then .next (s.dueAt (s.wcc + 1) .windowStoreAck (.ctx t 0))
      else if s.moving d pa then .next (s.holdMoved d t)
      else
        let s := { s with tf := t }
        match s.translate d s.me.space va.toNat .write 5 false with
        | .error c => .next (s.trap 30 c va)
        | .ok pa => .next ((s.dramSet d pa bs).endStore f va)
    | _, _ => .next s
  | _ => .next s

/-- DRAIN_COMPLETE (R80). -/
def execDrainComplete (s : State) : Out :=
  match s.ev with
  | .ctx t _ =>
    match (s.ctx t).mode with
    | .waiting (.drainMem m bound) =>
      if s.drained t m bound then ({ s with tf := t } : State).endDrain m else .next s
    | _ => .next s
  | _ => .next s

end Sys2Proof.Machine
end

