-- ==== Sys2Proof/Machine/Atomics.lean ====
section
/-! DEFINITION. Atomics (R83 to R87), REDC (R88), SPAWNU and its updates (R89, R90, R267). -/

namespace Sys2Proof.Machine

/-- The atomic operations (R83). -/
inductive AtomicFn where
  | faa | cas | swp | and | or | xor | minI | maxI | minN | maxN | fadda
  deriving DecidableEq, Repr

/-- The new value of a word of n bits (R83): `e` is rd, the value a CAS expects. -/
def AtomicFn.apply (f : AtomicFn) (n old v e : Nat) : Nat :=
  match f with
  | .faa => (old + v) % 2 ^ n
  | .cas => if old = e then v else old
  | .swp => v
  | .and => old &&& v
  | .or => old ||| v
  | .xor => old ^^^ v
  | .minI => if signed n v < signed n old then v else old
  | .maxI => if signed n old < signed n v then v else old
  | .minN => if v < old then v else old
  | .maxN => if old < v then v else old
  | .fadda => if n = 32 then f32.add .rne old v else f64.add .rne old v

/-- Whether FADDA meets a subnormal (R54, R83). -/
def AtomicFn.meetsSub (f : AtomicFn) (n old v : Nat) : Bool :=
  match f with
  | .fadda =>
    let h := if n = 32 then f32 else f64
    h.isSub old || h.isSub v || h.addTiny .rne old v
  | _ => false

/-- rd of an atomic (R83). -/
def AtomicFn.old (f : AtomicFn) (n v : Nat) : Word :=
  match f with
  | .minI | .maxI => ofInt (signed n v)
  | _ => toWord v

/-- An atomic's fields: registers, scope level, failure acquire, order, size in bits. -/
structure AtomicForm where
  f : AtomicFn
  d : Reg
  a : Reg
  b : Reg
  level : Nat
  facq : Bool
  order : Nat
  n : Nat
  deriving DecidableEq, Repr

/-- The size in bits that func10 [0] codes when [1] is 1 (R27). -/
def atomicBitsOf (z : BitVec 1) : Nat := if z = 1 then 64 else 32

/-- The form of an instruction that is an atomic. -/
def atomicForm : Instr → Option AtomicForm
  | .faa _ d a b l o z => some ⟨.faa, d, a, b, l.toNat, false, o.toNat, atomicBitsOf z⟩
  | .cas _ d a b l f o z => some ⟨.cas, d, a, b, l.toNat, f == 1, o.toNat, atomicBitsOf z⟩
  | .swp _ d a b l o z => some ⟨.swp, d, a, b, l.toNat, false, o.toNat, atomicBitsOf z⟩
  | .atomicAnd _ d a b l o z => some ⟨.and, d, a, b, l.toNat, false, o.toNat, atomicBitsOf z⟩
  | .atomicOr _ d a b l o z => some ⟨.or, d, a, b, l.toNat, false, o.toNat, atomicBitsOf z⟩
  | .atomicXor _ d a b l o z => some ⟨.xor, d, a, b, l.toNat, false, o.toNat, atomicBitsOf z⟩
  | .atomicMinI _ d a b l o z => some ⟨.minI, d, a, b, l.toNat, false, o.toNat, atomicBitsOf z⟩
  | .atomicMaxI _ d a b l o z => some ⟨.maxI, d, a, b, l.toNat, false, o.toNat, atomicBitsOf z⟩
  | .atomicMinN _ d a b l o z => some ⟨.minN, d, a, b, l.toNat, false, o.toNat, atomicBitsOf z⟩
  | .atomicMaxN _ d a b l o z => some ⟨.maxN, d, a, b, l.toNat, false, o.toNat, atomicBitsOf z⟩
  | .fadda _ d a b l o z => some ⟨.fadda, d, a, b, l.toNat, false, o.toNat, atomicBitsOf z⟩
  | _ => none

/-- Whether an order acquires: .acq or .ar (R84). -/
def orderAcquires (o : Nat) : Bool := o == 1 || o == 3
/-- Whether an order releases: .rel or .ar (R84). -/
def orderReleases (o : Nat) : Bool := o == 2 || o == 3

/-- The scope of an acquire or release at level 2 is SYS.RECT, which must keep R32 (R84). -/
def withRect (s : State) (level order : Nat) (k : State → Out) : Out :=
  if order ≠ 0 ∧ level = 2 ∧ !rectLegal s.me.rect.toNat then trapOut s 7 0 else k s

/-- A release waits for the context's earlier accesses (R261). -/
def whenReleased (s : State) (level order : Nat) (k : State → Out) : Out :=
  if orderReleases order then whenDrained s (countsUpdates s.tf.core level) k else k s

/-- The indivisible read and write of an atomic at a target (R83): the old value, and the state after the write. -/
def State.atomicAt (s : State) (f : AtomicFn) (c : Option CoreRef) (x : Target) (n v e : Nat) : Nat × State :=
  let old := leNat (s.targetGet x (n / 8))
  if f = .cas ∧ old ≠ e then (old, s) else (old, s.targetSet c x (leBytes (n / 8) (f.apply n old v e)))

/-- A write of the acting context to a mirrored range has been performed: the partner holds the thread's state after it
(R284). -/
def State.noteCopy (s : State) (x : Target) : State :=
  match x with
  | .tier _ true _ => s.modCtx s.tf fun c => { c with copy := some (s.traveller s.tf c.pc) }
  | _ => s

/-- An atomic of the acting context executes at a target: rd, the acquire of its order (R84), its turn. -/
def atomicHere (i : AtomicForm) (v : Nat) (x : Target) (s : State) : Out :=
  let s0 := s.flushTarget s.tf x
  let e := (s0.reg i.d).toNat % 2 ^ i.n
  let (old, s1) := s0.atomicAt i.f (some s.tf.core) x i.n v e
  let failed := i.f = .cas ∧ old ≠ e
  let acq := orderAcquires i.order || (failed && i.facq)
  let s2 := s1.setReg i.d (i.f.old i.n old)
  let s3 := if acq then s2.acquire s.tf.core (effectiveLevel s.tf.core i.level) else s2
  let s4 := if failed then s3.retire 4 else (s3.retire 4).noteCopy x
  .next (if i.f.meetsSub i.n old v then s4.useNormaliser else s4)

/-- An atomic or REDC other than a network FAA to device memory runs on the edge core beside the home slice (R87). A line
that moves under an interleave change is waited for, and then met at its new home (R313). -/
def atEdge (va : Word) (d pa : Nat) (here : Target → State → Out) (s : State) : Out :=
  let edge : CoreRef := .edge d ((s.dev d).home pa)
  if s.tf.core = edge then
    (if s.waitsForX s.tf (.dram d pa va) then .next (s.pause .again) else here (.dram d pa va) s)
  else travel s edge s.me.pc va false

/-- Where an atomic access of n bytes runs (Table 1 of R73): `net` is a network FAA's way to the home slice. -/
def atomicAccess (va : Word) (n : Nat) (net : Option (Nat → Nat → State → Out)) (here : Target → State → Out)
    (s : State) : Out :=
  match s.aim va n with
  | .error c => trapOut s c va
  | .ok (.pool c off) => if c = s.tf.core then here (.pool c off) s else travel s c s.me.pc va false
  | .ok (.dram d remote ro) =>
    if remote && ro then trapOut s causeProtection va
    else
      whenWalked s d va fun s =>
        match s.translateAt va d remote .write with
        | .error e => trapWith s e va
        | .ok pa =>
          let s1 := s.noteWalk d s.me.space va.toNat
          match net with
          | some k => k d pa (if remote then s1.ask d else s1)
          | none => atEdge va d pa here s1
  | .ok (.tier k inc off) => tierAccess s va k inc off here
  | .ok (.window _ _ _) => trapOut s 14 va
  | .ok (.bad c) => trapOut s c va

/-- An atomic of major 0x28 to 0x2C (R83 to R87): as an entry of the load queue it waits for marked stores (R80, R264). -/
def atomic (g : Guard) (i : AtomicForm) (s : State) : Out :=
  guarded g 4 s fun s => whenUnmarked s fun s => withRect s i.level i.order fun s => whenReleased s i.level i.order fun s =>
    let va := s.reg i.a
    let v := (s.reg i.b).toNat % 2 ^ i.n
    let net := if i.f = .faa then
        some fun d pa (s : State) =>
          Host.Outcome.next ((s.park s.tf (.atomic d pa va (toWord v))).later .atomicReply (.ctx s.tf 0))
      else none
    atomicAccess va (i.n / 8) net (atomicHere i v) s

/-- An atomic whose scope or order field is illegal, or whose bit [4] is set under another order than .rel, is illegal
(R24, R27, R84). -/
def checkedAtomic (g : Guard) (l : BitVec 3) (o : BitVec 2) (facq : Bool) (i : AtomicForm) (s : State) : Out :=
  if atomicLegal l o && (!facq || o == 2) then atomic g i s else illegal s

/-- FAA (R83, R85). -/
def execFaa (g : Guard) (d a b : Reg) (l : BitVec 3) (o : BitVec 2) (z : BitVec 1) (s : State) : Out :=
  checkedAtomic g l o false ⟨.faa, d, a, b, l.toNat, false, o.toNat, atomicBitsOf z⟩ s
/-- CAS (R83, R84). -/
def execCas (g : Guard) (d a b : Reg) (l : BitVec 3) (f : BitVec 1) (o : BitVec 2) (z : BitVec 1) (s : State) : Out :=
  checkedAtomic g l o (f == 1) ⟨.cas, d, a, b, l.toNat, f == 1, o.toNat, atomicBitsOf z⟩ s
/-- SWP (R83). -/
def execSwp (g : Guard) (d a b : Reg) (l : BitVec 3) (o : BitVec 2) (z : BitVec 1) (s : State) : Out :=
  checkedAtomic g l o false ⟨.swp, d, a, b, l.toNat, false, o.toNat, atomicBitsOf z⟩ s
/-- AND (R83). -/
def execAtomicAnd (g : Guard) (d a b : Reg) (l : BitVec 3) (o : BitVec 2) (z : BitVec 1) (s : State) : Out :=
  checkedAtomic g l o false ⟨.and, d, a, b, l.toNat, false, o.toNat, atomicBitsOf z⟩ s
/-- OR (R83). -/
def execAtomicOr (g : Guard) (d a b : Reg) (l : BitVec 3) (o : BitVec 2) (z : BitVec 1) (s : State) : Out :=
  checkedAtomic g l o false ⟨.or, d, a, b, l.toNat, false, o.toNat, atomicBitsOf z⟩ s
/-- XOR (R83). -/
def execAtomicXor (g : Guard) (d a b : Reg) (l : BitVec 3) (o : BitVec 2) (z : BitVec 1) (s : State) : Out :=
  checkedAtomic g l o false ⟨.xor, d, a, b, l.toNat, false, o.toNat, atomicBitsOf z⟩ s
/-- MIN.i (R83). -/
def execAtomicMinI (g : Guard) (d a b : Reg) (l : BitVec 3) (o : BitVec 2) (z : BitVec 1) (s : State) : Out :=
  checkedAtomic g l o false ⟨.minI, d, a, b, l.toNat, false, o.toNat, atomicBitsOf z⟩ s
/-- MAX.i (R83). -/
def execAtomicMaxI (g : Guard) (d a b : Reg) (l : BitVec 3) (o : BitVec 2) (z : BitVec 1) (s : State) : Out :=
  checkedAtomic g l o false ⟨.maxI, d, a, b, l.toNat, false, o.toNat, atomicBitsOf z⟩ s
/-- MIN.n (R83). -/
def execAtomicMinN (g : Guard) (d a b : Reg) (l : BitVec 3) (o : BitVec 2) (z : BitVec 1) (s : State) : Out :=
  checkedAtomic g l o false ⟨.minN, d, a, b, l.toNat, false, o.toNat, atomicBitsOf z⟩ s
/-- MAX.n (R83). -/
def execAtomicMaxN (g : Guard) (d a b : Reg) (l : BitVec 3) (o : BitVec 2) (z : BitVec 1) (s : State) : Out :=
  checkedAtomic g l o false ⟨.maxN, d, a, b, l.toNat, false, o.toNat, atomicBitsOf z⟩ s
/-- FADDA (R83). -/
def execFadda (g : Guard) (d a b : Reg) (l : BitVec 3) (o : BitVec 2) (z : BitVec 1) (s : State) : Out :=
  checkedAtomic g l o false ⟨.fadda, d, a, b, l.toNat, false, o.toNat, atomicBitsOf z⟩ s

/-! ## REDC (R88) -/

/-- One compensated step on a pair (s, e) in a format (R88). -/
def redcStep (h : FloatFmt) (sv ev x : Nat) : Nat × Nat :=
  let fl := h.add .rne
  let fs := h.sub .rne
  let t := fl sv x
  let a := fs t x
  let b := fs t a
  let err := fl (fs sv a) (fs x b)
  (t, fl ev err)

/-- Whether a sum in a format meets a subnormal (R54). -/
def FloatFmt.sumMeets (h : FloatFmt) (a b : Nat) : Bool := h.isSub a || h.isSub b || h.addTiny .rne a b

/-- Whether REDC meets a subnormal: every rounded operation of its step counts (R54, R88). [log 82] -/
def redcMeets (h : FloatFmt) (sv ev x : Nat) : Bool :=
  let minus (a b : Nat) : Bool := h.isSub a || h.isSub b || h.tiny ((h.value a).add .rne (h.value b).neg)
  let t := h.add .rne sv x
  let a := h.sub .rne t x
  let b := h.sub .rne t a
  let p := h.sub .rne sv a
  let q := h.sub .rne x b
  h.isSub ev || h.sumMeets sv x || minus t x || minus t a || minus sv a || minus x b || h.sumMeets p q
    || h.sumMeets ev (h.add .rne p q)

/-- The element format of REDC and FADDA. -/
def atomicFmt (n : Nat) : FloatFmt := if n = 32 then f32 else f64

/-- REDC's update of the pair at a target (R88). -/
def State.redcAt (s : State) (c : Option CoreRef) (x : Target) (n v : Nat) : State :=
  let bs := s.targetGet x (n / 4)
  let (sv, ev) := redcStep (atomicFmt n) (leNat (bs.take (n / 8))) (leNat (bs.drop (n / 8))) v
  s.targetSet c x (leBytes (n / 8) sv ++ leBytes (n / 8) ev)

/-- Whether REDC's update of the pair at a target meets a subnormal. -/
def State.redcSub (s : State) (x : Target) (n v : Nat) : Bool :=
  let bs := s.targetGet x (n / 4)
  redcMeets (atomicFmt n) (leNat (bs.take (n / 8))) (leNat (bs.drop (n / 8))) v

/-- REDC of the acting context at a target. -/
def redcHere (n level order v : Nat) (x : Target) (s : State) : Out :=
  let s0 := s.flushTarget s.tf x
  let s1 := s0.redcAt (some s.tf.core) x n v
  let s2 := if orderAcquires order then s1.acquire s.tf.core (effectiveLevel s.tf.core level) else s1
  let s3 := (s2.retire 4).noteCopy x
  .next (if s0.redcSub x n v then s3.useNormaliser else s3)

/-- REDC (R88). -/
def execRedc (g : Guard) (a b : Reg) (l : BitVec 3) (o : BitVec 2) (z : BitVec 1) (s : State) : Out :=
  if atomicLegal l o then
    guarded g 4 s fun s => whenUnmarked s fun s => withRect s l.toNat o.toNat fun s =>
      whenReleased s l.toNat o.toNat fun s =>
      let n := atomicBitsOf z
      let v := (s.reg b).toNat % 2 ^ n
      atomicAccess (s.reg a) 16 none (redcHere n l.toNat o.toNat v) s
  else illegal s

/-! ## SPAWNU (R89, R90, R267) -/

/-- The alignment that a kind of update requires. -/
def updateAlign (k : Nat) : Nat :=
  match k with
  | 1 => 4
  | 3 | 4 => 16
  | _ => 8

/-- The core that an update is bound for, where it needs no translation to be known. -/
def State.updateCore (s : State) (u : RemoteUpdate) : Option CoreRef :=
  match s.updatePlace u with
  | .pool c _ => some c
  | .tier k _ off => some (bankCore k off)
  | _ => none

/-- Whether two updates of one context go to one destination core: for device memory, to one home slice as translated
now (R89). -/
def State.sameDestination (s : State) (u v : RemoteUpdate) : Bool :=
  let slice (w : RemoteUpdate) : Option (Nat × Nat) :=
    match s.updatePlace w with
    | .dram d r _ =>
      match s.translate d w.space w.va.toNat .write (accessClass r) (w.priv && !r) with
      | .ok pa => some (d, (s.dev d).home pa)
      | .error _ => none
    | _ => none
  decide (u.src = v.src) && (s.updateCore u == s.updateCore v) && (slice u == slice v)

/-- The device to whose cores an update goes, where it is not a switch (R89, R296). -/
def State.updateDev (s : State) (u : RemoteUpdate) : Option Nat :=
  match s.updatePlace u with
  | .pool c _ => c.dev
  | .dram d _ _ => some d
  | _ => none

/-- Sends an update: it arrives after every earlier one of its context to the same core (R89). -/
def State.sendUpdate (s : State) (u : RemoteUpdate) : State :=
  let s := match u.core.dev, s.updateDev u with
    | some d, some e => s.useWay u.core d e
    | _, _ => s
  let before := s.agenda.filterMap fun e =>
    match e.2.2 with
    | .update v => if s.sameDestination u v then some e.1 else none
    | _ => none
  let due := before.foldl Nat.max (s.wcc + 1 + Config.choice s.fresh)
  ({ s with fresh := s.fresh + 1 } : State).dueAt due .remoteUpdateApply (.update u)

/-- SPAWNU (R89): the checks that need no translation are made at issue; kinds 7 to 15 are illegal. -/
def execSpawnu (g : Guard) (a b : Reg) (k : BitVec 4) (s : State) : Out :=
  if 6 < k.toNat then illegal s
  else
    guarded g 4 s fun s =>
      let va := s.reg a
      let h := s.homeOf s.tf
      let u : RemoteUpdate :=
        { id := s.serial, src := h, core := s.tf.core, kind := k.toNat, va := va, value := s.reg b, space := s.me.space,
          priv := s.me.priv }
      let send (s : State) : Out :=
        .next ((((s.number.2.modCtx h fun c => { c with updates := c.updates ++ [va] }).countSent s.me.tjob).sendUpdate u).retire 4)
      match s.aim va (updateAlign k.toNat) with
      | .error c => trapOut s c va
      | .ok (.pool c _) => if s.spaceRefused s.tf c then trapOut s 20 va else send s
      | .ok (.dram _ remote ro) => if remote && ro then trapOut s causeProtection va else send s
      | .ok (.tier _ _ _) => send s
      | .ok (.window _ _ _) => trapOut s 14 va
      | .ok (.bad c) => trapOut s c va

/-- An update's effect at a target (R89). -/
def State.applyUpdate (s : State) (u : RemoteUpdate) (x : Target) : State :=
  let c : Option CoreRef := none
  let v := u.value.toNat
  match u.kind with
  | 0 => (s.atomicAt .faa c x 64 v 0).2
  | 1 => (s.atomicAt .fadda c x 32 (v % 2 ^ 32) 0).2
  | 2 => (s.atomicAt .fadda c x 64 v 0).2
  | 3 => s.redcAt c x 32 (v % 2 ^ 32)
  | 4 => s.redcAt c x 64 v
  | 5 => (s.atomicAt .minI c x 64 v 0).2
  | _ => (s.atomicAt .maxI c x 64 v 0).2

/-- The loss by which an update to the tier fails, if it does: of the switch or pair that its pointer's incarnation names
(R277, R278). -/
def State.lossOf (s : State) (u : RemoteUpdate) : Option Nat :=
  match s.updatePlace u with
  | .tier k inc off =>
    let a := s.allocAt k off
    let name := 64 * (if a.any fun b => b.mir then 24 + k / 2 else k) + inc
    match s.tierRoute u.src k off with
    | .stop _ => some name
    | .go _ _ => if a.any fun b => !b.freed && !s.allocLive b then some name else none
  | _ => none

/-- The failure of an update enters a context's deferred-fault record: the first failure does, and of those by one loss the
earliest issued (R90, R278). -/
def Ctx.defer (c : Ctx) (u : RemoteUpdate) (cause : Nat) (loss : Option Nat) : Ctx :=
  let earlier := match c.deferredBy, loss with
    | some (n, l), some k => l == k && decide (u.id < n)
    | _, _ => false
  if c.deferred.isNone || earlier then
    { c with deferred := some (cause, u.va), deferredBy := loss.map fun k => (u.id, k) }
  else c

/-- An update is over: applied, or dropped and its failure recorded (R90); it counts as received (R279). -/
def State.endUpdate (s : State) (u : RemoteUpdate) (failed : Option Nat) : State :=
  let s1 := s.modCtx u.src fun c =>
    let c1 := { c with updates := c.updates.erase u.va }
    match failed with
    | some cause => c1.defer u cause (s.lossOf u)
    | none => c1
  s1.countRcvd (s.ctx u.src).tjob

/-- What stops an update at its destination, or the target it is applied to (R90, R277). -/
def State.updateTarget (s : State) (u : RemoteUpdate) : Except Nat Target :=
  match s.updatePlace u with
  | .pool c off => .ok (.pool c off)
  | .dram d remote _ =>
    match s.reach u.core u.src.core (u.core.dev.getD (u.src.core.dev.getD 0)) d remote u.space u.va .write 0 u.priv with
    | .ok pa => .ok (.dram d pa u.va)
    | .error e => .error e.1
  | .tier k inc off =>
    match s.tierRoute u.src k off with
    | .stop c => .error c
    | .go c mir =>
      match s.tierCheck u.space k inc off with
      | some cause => .error cause
      | none => .ok (.tier (match c with
          | .switch p _ => p
          | _ => k) mir off)
  | .window _ _ _ => .error 14
  | .bad c => .error c

/-- Whether an update waits at a switch that has failed, for the notice at which it is dropped (R277). -/
def State.updateSilent (s : State) (u : RemoteUpdate) : Bool :=
  match s.updatePlace u with
  | .tier k _ off => s.deadBank u.src k off
  | _ => false

/-- The core on which an update executes (R89). -/
def State.updateRuns (s : State) (x : Target) : CoreRef :=
  match x with
  | .pool c _ => c
  | .dram d pa _ => .edge d ((s.dev d).home pa)
  | .tier k _ off => bankCore k off

/-- Whether an update meets a subnormal at a target (R54, R226). -/
def State.updateSub (s : State) (u : RemoteUpdate) (x : Target) : Bool :=
  let v := u.value.toNat
  match u.kind with
  | 1 => AtomicFn.fadda.meetsSub 32 (leNat (s.targetGet x 4)) (v % 2 ^ 32)
  | 2 => AtomicFn.fadda.meetsSub 64 (leNat (s.targetGet x 8)) v
  | 3 => s.redcSub x 32 (v % 2 ^ 32)
  | 4 => s.redcSub x 64 v
  | _ => false

/-- An update no longer stands in a normaliser's queue. -/
def State.leaveNormaliser (s : State) (c : CoreRef) (u : RemoteUpdate) : State :=
  if (s.core c).normQueue.contains (16 + u.id) then
    s.modCore c fun v => { v with normQueue := without v.normQueue (16 + u.id) }
  else s

/-- An update executes at its target, when it meets a subnormal in its turn at the core's normaliser (R226). -/
def State.runUpdate (s : State) (u : RemoteUpdate) (x : Target) : State :=
  let c := s.updateRuns x
  let v := s.core c
  let mine := v.normQueue.head? == some (16 + u.id)
  if !s.updateSub u x then ((s.leaveNormaliser c u).applyUpdate u x).endUpdate u none
  else if v.normBusy ≤ s.wcc ∧ (v.normQueue = [] ∨ mine) then
    (((s.leaveNormaliser c u).modCore c fun v => { v with normBusy := s.wcc + 4 }).applyUpdate u x).endUpdate u none
  else
    let s1 := if v.normQueue.contains (16 + u.id) then s else
      s.modCore c fun v => { v with normQueue := v.normQueue ++ [16 + u.id] }
    s1.dueAt (s.wcc + 1) .remoteUpdateApply (.update u)

/-- Whether an update must wait: an earlier one of the same context to the same core is still to be applied (R89), or an earlier
access of its core through the window to the same device to be performed (R324). -/
def State.updateBehind (s : State) (u : RemoteUpdate) : Bool :=
  (s.agenda.any fun e => match e.2.2 with
    | .update v => decide (v.id < u.id) && s.sameDestination u v
    | _ => false)
  || (s.updateVia u).any fun d => s.askedBefore u.core d u.id

/-- Whether the walk of an update's address waits for X (R313). -/
def State.updateWalks (s : State) (u : RemoteUpdate) : Bool :=
  match s.updatePlace u with
  | .dram d _ _ => s.walkMoves d u.space u.va.toNat
  | _ => false

/-- REMOTE_UPDATE_APPLY (R89, R90, R267). A line that moves is met at its new home, after X (R313). -/
def execRemoteUpdateApply (s : State) : Out :=
  match s.ev with
  | .update u =>
    if s.updateSilent u || s.updateBehind u || s.updateWalks u then .next (s.dueAt (s.wcc + 1) .remoteUpdateApply (.update u)) else
    match s.updateTarget u with
    | .error cause => .next (s.endUpdate u (some cause))
    | .ok x =>
      if s.targetMoves x then
        .next ((s.leaveNormaliser (s.updateRuns x) u).dueAt (s.wcc + 1) .remoteUpdateApply (.update u))
      else .next (s.runUpdate u x)
  | _ => .next s

end Sys2Proof.Machine
end

