-- ==== Sys2Proof/Machine/Formats.lean ====
section
/-! DEFINITION. Operand formats (R206 to R211), entropy-coded blocks (R212 to R215), scales (R216, R217), and the resolve of a
barchan slot (R218, R223, R224). -/

namespace Sys2Proof.Machine

/-! ## Element formats (R206 to R210) -/

/-- E4M3-EC, E5M2-EC and E3M2-EC have the elements of E4M3, E5M2 and E3M2 (R206). -/
def baseFormat (c : Nat) : Nat :=
  match c with
  | 10 => 4
  | 11 => 5
  | 12 => 7
  | _ => c

/-- Bits of an element (Tables 1 and 2). -/
def elementBits (c : Nat) : Nat :=
  match c with
  | 1 => 32
  | 2 | 3 | 13 => 16
  | 4 | 5 | 6 | 10 | 11 | 14 | 15 => 8
  | 7 | 8 | 12 => 6
  | 9 | 16 | 17 => 4
  | 18 | 19 => 2
  | _ => 1

/-- The value of a pattern without infinity or NaN (R207). -/
def narrowValue (ebits mbits bias v : Nat) : FVal :=
  let s := bit v (ebits + mbits)
  let e := v / 2 ^ mbits % 2 ^ ebits
  let m := v % 2 ^ mbits
  if e = 0 then .fin s m (1 - (bias : Int) - mbits) else .fin s (2 ^ mbits + m) ((e : Int) - bias - mbits)

/-- An integer as a value. -/
def intValue (i : Int) : FVal := .fin (decide (i < 0)) i.natAbs 0

/-- The value of an element of a format (R207, R209); a reserved TERN code counts as 0 (R211). -/
def elementValue (c v : Nat) : FVal :=
  match c with
  | 1 => f32.value v
  | 2 => f16.value v
  | 3 => bf16.value v
  | 4 | 10 => if v % 128 = 127 then .nan else narrowValue 4 3 7 v
  | 5 | 11 => (⟨5, 2⟩ : FloatFmt).value v
  | 6 => if v % 128 = 127 then .nan else narrowValue 3 4 3 v
  | 7 | 12 => narrowValue 3 2 3 v
  | 8 => narrowValue 2 3 1 v
  | 9 => narrowValue 2 1 1 v
  | 13 => intValue (signed 16 v)
  | 14 => intValue (signed 8 v)
  | 15 => intValue v
  | 16 => intValue (signed 4 v)
  | 17 => intValue v
  | 18 => intValue (signed 2 v)
  | 19 => intValue (if v = 1 then 1 else if v = 2 then -1 else 0)
  | _ => intValue (if v = 0 then -1 else 1)

/-- Whether an element is a reserved TERN code, which sets X of the slots it feeds (R211). -/
def reservedTern (c v : Nat) : Bool := c == 19 && v == 3

/-- Element j of packed elements (R210): element 0 at the lowest address, each in the little-endian bit stream. -/
def packedElement (c : Nat) (bs : List Byte) (j : Nat) : Nat :=
  let n := elementBits c
  let lo := n * j
  leNat ((bs.drop (lo / 8)).take ((lo % 8 + n + 7) / 8)) / 2 ^ (lo % 8) % 2 ^ n

/-- Whether a code names a float format (R206); 13 to 20 name the integer formats (R209). -/
def isFloatCode (c : Nat) : Bool := decide (1 ≤ c) && decide (c ≤ 12)

/-- Whether a code names an entropy-coded format. -/
def isEc (c : Nat) : Bool := decide (10 ≤ c) && decide (c ≤ 12)

/-! ## Entropy-coded blocks (R212 to R214) -/

/-- Length of symbol j in a code table (R128, R214). -/
def codeLength (t : Word) (j : Nat) : Nat := t.toNat / 2 ^ (4 * j) % 16

/-- The canonical codes of length `len` and more: (symbol, length, code) (R214). -/
def canonicalFrom (t : Word) : Nat → Nat → Nat → List (Nat × Nat × Nat)
  | 0, _, _ => []
  | n + 1, len, code =>
    let syms := (List.range 16).filter fun j => codeLength t j == len
    (syms.zipIdx.map fun x => (x.1, len, code + x.2)) ++ canonicalFrom t n (len + 1) ((code + syms.length) * 2)

/-- The codes of a table (R214). -/
def canonical (t : Word) : List (Nat × Nat × Nat) := canonicalFrom t 8 1 0

/-- Takes one symbol from bit `pos` of a stream of `limit` bits; the first bit taken is the code's most significant. -/
def ecSymbol (codes : List (Nat × Nat × Nat)) (stream limit : Nat) : Nat → Nat → Nat → Nat → Option (Nat × Nat)
  | 0, _, _, _ => none
  | n + 1, pos, len, code =>
    if limit ≤ pos then none
    else
      let code' := 2 * code + stream / 2 ^ pos % 2
      match codes.find? fun x => x.2.1 == len + 1 && x.2.2 == code' with
      | some x => some (x.1, pos + 1)
      | none => ecSymbol codes stream limit n (pos + 1) (len + 1) code'

/-- The next n bits, the first taken the most significant. -/
def takeBits (stream : Nat) : Nat → Nat → Nat → Nat
  | 0, _, v => v
  | n + 1, pos, v => takeBits stream n (pos + 1) (2 * v + stream / 2 ^ pos % 2)

/-- The exponent field of one element, and the position after its code (R213). -/
def ecExponent (c : Nat) (codes : List (Nat × Nat × Nat)) (stream limit pos : Nat) : Option (Nat × Nat) :=
  match ecSymbol codes stream limit 8 pos 0 0 with
  | none => none
  | some (j, p) =>
    match c with
    | 12 => if j < 8 then some (j, p) else none
    | 11 => if j < 15 then some (j + 1, p) else if limit < p + 5 then none else some (takeBits stream 5 p 0, p + 5)
    | _ => some (j, p)

/-- The exponent fields of n elements, and the position after them. -/
def ecExponents (c : Nat) (codes : List (Nat × Nat × Nat)) (stream limit : Nat) : Nat → Nat → Option (List Nat × Nat)
  | 0, pos => some ([], pos)
  | n + 1, pos =>
    match ecExponent c codes stream limit pos with
    | none => none
    | some (e, p) => (ecExponents c codes stream limit n p).map fun r => (e :: r.1, r.2)

/-- Mantissa and exponent widths of the base format of an entropy-coded one. -/
def ecWidths (c : Nat) : Nat × Nat :=
  match c with
  | 10 => (3, 4)
  | 11 => (2, 5)
  | _ => (2, 3)

/-- Decodes one block at the head of the bytes: its 32 elements as base patterns, and its length; none is ec-decode
(R212). -/
def ecBlock (c : Nat) (t : Word) (bs : List Byte) : Option (List Nat × Nat) :=
  let h := (bs.headD 0).toNat
  let mode := h / 64
  let plen := h % 64
  let (mb, eb) := ecWidths c
  let sb := 4 * (1 + mb)
  if plen = 0 ∨ 16 < plen then none
  else
    match mode with
    | 0 =>
      let fields := leNat ((bs.drop 1).take sb)
      let stream := leNat ((bs.drop (1 + sb)).take (4 * plen - 1 - sb))
      match ecExponents c (canonical t) stream (8 * (4 * plen - 1 - sb)) 32 0 with
      | none => none
      | some (es, used) =>
        if plen ≠ (1 + sb + (used + 7) / 8 + 3) / 4 then none
        else
          some (es.zipIdx.map fun x =>
            let f := fields / 2 ^ ((1 + mb) * x.2) % 2 ^ (1 + mb)
            f / 2 ^ mb * 2 ^ (mb + eb) + x.1 * 2 ^ mb + f % 2 ^ mb, 4 * plen)
    | 1 =>
      if plen ≠ (1 + 4 * elementBits c + 3) / 4 then none
      else some ((List.range 32).map fun j => packedElement c (bs.drop 1) j, 4 * plen)
    | 2 => if plen ≠ 1 then none else some (List.replicate 32 0, 4)
    | _ => none

/-- Decodes n blocks in turn. -/
def ecBlocks (c : Nat) (t : Word) : Nat → List Byte → Option (List Nat)
  | 0, _ => some []
  | n + 1, bs =>
    match ecBlock c t bs with
    | none => none
    | some (es, k) => (ecBlocks c t n (bs.drop k)).map fun r => es ++ r

/-! ## Slots (R218, R223, R224) -/

/-- The 33 reserved bits, flags, K and A of a slot's upper 64 bits, as one number (Table 4). -/
def Slot.top (k : Slot) : Nat :=
  k.anchor.toNat + k.count.toNat * 2 ^ 10 + (if k.n then 2 ^ 26 else 0) + (if k.pi then 2 ^ 27 else 0)
    + (if k.mi then 2 ^ 28 else 0) + (if k.x then 2 ^ 29 else 0) + (if k.v then 2 ^ 30 else 0) + k.res.toNat * 2 ^ 31

/-- The sum vector S: as written, or open after an accumulate (R219). -/
def Slot.sumBits (k : Slot) : BitVec 96 :=
  match k.sum with
  | .inl v => v
  | .inr i => Config.sumVector i

/-- The 256 raw bits of a slot (Table 4): C is Wv − S. -/
def Slot.raw (k : Slot) : Nat := k.sumBits.toNat + (k.wv - k.sumBits).toNat * 2 ^ 96 + k.top * 2 ^ 192

/-- The slot that 256 raw bits hold. -/
def Slot.ofRaw (n : Nat) : Slot :=
  let s := BitVec.ofNat 96 n
  let c := BitVec.ofNat 96 (n / 2 ^ 96)
  { wv := s + c, sum := .inl s, anchor := BitVec.ofNat 10 (n / 2 ^ 192), count := BitVec.ofNat 16 (n / 2 ^ 202),
    n := bit n 218, pi := bit n 219, mi := bit n 220, x := bit n 221, v := bit n 222,
    res := BitVec.ofNat 33 (n / 2 ^ 223) }

/-- The exact value Wv × 2^(A − 64) (R218). -/
def Slot.value (k : Slot) : FVal :=
  .fin (decide (k.wv.toInt < 0)) k.wv.toInt.natAbs (k.anchor.toInt - 64)

/-- Unordered: N, or both infinities, or V (R224). -/
def Slot.unordered (k : Slot) : Bool := k.n || (k.pi && k.mi) || k.v

/-- The oversize NaN of row 4 of Table 5. -/
def oversizeNan (f : FloatFmt) : Nat := if f = f32 then 0x7FC00A00 else f.nan + 1

/-- A float resolve (Table 5 of R223): RND 0 is nearest-even, 1 toward zero. -/
def Slot.resolveFloat (k : Slot) (f : FloatFmt) (rnd : Nat) : Nat :=
  if k.n || (k.pi && k.mi) then f.nan
  else if k.pi then f.inf
  else if k.mi then f.signed true f.inf
  else if k.v then oversizeNan f
  else if k.wv = 0 then 0
  else f.round (if rnd = 0 then .rne else .rtz) k.value

/-- Division by 2^n rounded to nearest: ties to even with irnd = 0, away from zero with 1 (R224). -/
def roundShift (v : Int) (n irnd : Nat) : Int :=
  let m := v.natAbs
  let q := m / 2 ^ n
  let r := m % 2 ^ n
  let up := decide (2 ^ n < 2 * r) || (2 * r == 2 ^ n && n != 0 && (irnd == 1 || q % 2 == 1))
  let a : Int := (if up then q + 1 else q : Nat)
  if v < 0 then -a else a

/-- Saturates to n bits, signed (R147, R224). -/
def saturateTo (n : Nat) (v : Int) : Int := max (-(2 ^ (n - 1) : Int)) (min (2 ^ (n - 1) - 1) v)

/-- An integer resolve under shift s and an offset (R224). -/
def Slot.resolveInt (k : Slot) (s : Nat) (off : Int) (irnd bits : Nat) : Int :=
  if k.unordered then saturateTo bits off
  else if k.pi then 2 ^ (bits - 1) - 1
  else if k.mi then -(2 ^ (bits - 1) : Int)
  else
    let e := k.anchor.toInt - 64 - s
    let r := if 0 ≤ e then k.wv.toInt * 2 ^ e.toNat else roundShift k.wv.toInt (-e).toNat irnd
    saturateTo bits (r + off)

end Sys2Proof.Machine
end

