-- ==== Sys2Proof/Machine/Migration.lean ====
section
/-! DEFINITION. MIG and HOME (R91), the admission of a caravan (R243, R266), its return home (R93) and its loss (R94). -/

namespace Sys2Proof.Machine

/-- MIG goes on after itself: at once when the thread is already there (R91). -/
def migTo (s : State) (c : CoreRef) (va : Word) (mir : Bool) : Out :=
  if c = s.tf.core then .next (s.retire 4) else travel s c (s.me.pc + 4) va mir

/-- MIG (R91): the core that Table 1 of R73 names for an access to ra. -/
def execMig (g : Guard) (a : Reg) (s : State) : Out :=
  guarded g 4 s fun s =>
    let va := s.reg a
    match s.aim va 1 with
    | .error c => trapOut s c va
    | .ok (.pool c _) => if c = s.aliasCore s.tf then .next (s.retire 4) else migTo s c va false
    | .ok (.dram d remote _) =>
      whenWalked s d va fun s => match s.translateAt va d remote .read with
      | .error e => trapWith s e va
      | .ok pa => migTo (s.noteWalk d s.me.space va.toNat) (.edge d ((s.dev d).home pa)) va false
    | .ok (.tier k _ off) =>
      match s.tierRoute s.tf k off with
      | .stop c => trapOut s c va
      | .go c mir => migTo s c va mir
    | .ok (.window _ _ _) => trapOut s 14 va
    | .ok (.bad c) => trapOut s c va

/-- HOME (R91): at home one turn; a guest moves home and goes on after it. -/
def execHome (g : Guard) (s : State) : Out :=
  guarded g 4 s fun s => if s.me.home = none then .next (s.retire 4) else goHome s (s.me.pc + 4)

/-! ## Admission (R243, R266) -/

/-- The number of contexts a core has: min(16, BND.W ÷ 160) (R233). -/
def Core.contexts (c : Core) : Nat := Nat.min 16 (c.bndW.toNat * 512 / 160)

/-- The free contexts of a core, the lowest first. -/
def State.freeCtxs (s : State) (c : CoreRef) : List Nat :=
  (List.range (s.core c).contexts).filter fun n => decide ((s.ctx ⟨c, n⟩).mode = .free)

/-- Writes a travelling thread's registers and predicate word into a context's workspace. -/
def State.writeThread (s : State) (t : CtxRef) (v : Traveller) : State :=
  let w := s.workspace t
  let regs := (v.regs.map fun r => leBytes 8 r.toNat).flatten
  ({ s with pool := s.pool.setBytes w regs } : State).setPredsOf t v.pred

/-- A thread takes a guest context (R243): the registers of Table 8 of R111 that admission sets. The rectangle and the job
are its home context's. [log 22] -/
def State.admitGuest (s : State) (t : CtxRef) (v : Traveller) (leader : Option Nat) (paired : Bool) : State :=
  let h := s.ctx v.home
  let c : Ctx :=
    { Ctx.reset with
      pc := v.pc, wp := BitVec.ofNat 18 (160 * t.n), priv := v.priv, guest := true, space := v.space, rect := h.rect,
      tvec := h.tvec, home := some v.home, tjob := h.tjob, leader := leader,
      paired := paired, copy := if paired then some v else none }
  let s1 := (if (s.core t.core).powered then s else s.powerUp t.core).setCtx t c
  (s1.writeThread t v).makeReady t

/-- A thread is back in its home context, ready to go on at its PC (R93). -/
def State.arriveHome (s : State) (v : Traveller) (leader : Option Nat) : State :=
  let t := v.home
  let s1 := s.modCtx t fun c =>
    { c with pc := v.pc, priv := v.priv, departure := none, leader := leader, cur := none, phase := 0 }
  (s1.writeThread t v).makeReady t

/-- How many guest contexts a caravan needs at a core: its threads whose home is elsewhere. -/
def contextsFor (c : Caravan) (dest : CoreRef) : Nat :=
  ((c.lead :: c.followers).filter fun v => !(v.home.core == dest)).length

/-- Puts a thread of a caravan into a context of a core: its home context, or the lowest free one; the context's
number. -/
def State.settle (s : State) (dest : CoreRef) (v : Traveller) (leader : Option Nat) (paired : Bool) : State × Nat :=
  if v.home.core = dest then (s.arriveHome v leader, v.home.n)
  else
    let n := (s.freeCtxs dest).headD 0
    (s.admitGuest ⟨dest, n⟩ v leader paired, n)

/-- Admits a caravan as one unit (R69, R243): L1 is invalidated by generation (R266), each thread counts as received
(R247). -/
def State.takeIn (s : State) (dest : CoreRef) (c : Caravan) : State × Nat :=
  let (s1, n) := (s.l1Clear dest).settle dest c.lead none c.mirrored
  let s2 := c.followers.foldl (fun st v => (st.settle dest v (some n) c.mirrored).1) s1
  ((c.lead :: c.followers).foldl (fun st v => st.countRcvd (st.ctx v.home).tjob) s2, n)

/-- Whether a switch in a caravan's way has been lost since the departure: for one that resides on a pair, the pair (R94,
R284). -/
def State.viaDead (s : State) (v : Via) : Bool :=
  if v.pair then s.pairInc (v.switch / 2) != v.inc else !(s.switch v.switch).up || (s.switch v.switch).inc != v.inc

/-- Whether a device holds the notice of that loss; a switch is readmitted only after every device has it (R277, R287). -/
def State.viaTold (s : State) (d : Nat) (v : Via) : Bool :=
  (s.dev d).lost.contains v.switch || (v.pair && (s.dev d).lost.contains (v.switch / 2 * 2 + 1 - v.switch % 2))
    || (s.switch v.switch).up

/-- Whether a caravan has been lost on its way. -/
def State.strayed (s : State) (c : Caravan) : Bool := c.via.any s.viaDead

/-- Where a caravan for a core goes now: for a mirrored range, to the core of the live primary (R283, R284). -/
def State.redirect (s : State) (dest : CoreRef) (c : Caravan) : Option CoreRef :=
  match dest with
  | .switch k b => if c.mirrored then (s.primary (k / 2)).map fun p => .switch p b else some dest
  | _ => some dest

/-- What remains in a caravan's way once a core has accepted it: a device's core is behind Soaro, and a switch core depends on
its own switch or pair (R277, R286). -/
def acceptedAt (core : CoreRef) (c : Caravan) : Caravan :=
  { c with
    via := match core.switch? with
      | some k => c.via.filter fun v => v.switch == k || (v.pair && v.switch / 2 == k / 2)
      | none => []
    origin := none }

/-- The residence on a pair that a caravan in transit has left, when the switch it left has been lost since: no one accepts the
caravan (R287). -/
def State.orphaned (s : State) (c : Caravan) : Option Origin :=
  c.origin.filter fun o => o.core.switch?.any fun k => !(s.switch k).up || (s.switch k).inc != o.inc

/-- Whether the home device of a caravan holds the notice of the loss of the switch that the caravan left (R287). -/
def State.originTold (s : State) (c : Caravan) (o : Origin) : Bool :=
  o.core.switch?.any fun k => (s.dev (c.lead.home.core.dev.getD 0)).lost.contains k || (s.switch k).up

/-- The caravan by which the partner admits the states that it holds of the threads that left a pair from a lost switch (R284). A
thread that is to be pre-empted at home still is. -/
def State.fromPartner (s : State) (c : Caravan) (o : Origin) : Caravan :=
  { lead := o.held.headD c.lead, followers := o.held.tail, via := (o.core.switch?.toList.map fun k => s.viaNow true k)
    mirrored := true
    why := match c.why with
      | .preempt ws => .preempt ws
      | _ => .goOn }

/-- Whether a caravan meets, on its way to a core of a device, a port whose key slot for its space has been zeroed: it is
discarded (R300). -/
def State.discarded (s : State) (dest : CoreRef) (c : Caravan) : Bool :=
  dest.dev.any fun d => c.via.any fun v => (s.port d v.switch).zeroed.contains c.lead.space.toNat

/-- The part of a job's pre-emption that concerns one context at an instruction boundary (R338): its record is written to
the context save area, and it leaves the rotation. -/
def State.preempt (s : State) (t : CtxRef) (waits : Bool) : State :=
  let c := s.ctx t
  match t.core.dev with
  | none => s
  | some d =>
    let base := (s.dev d).config.ctxbase + 16 * t.n + 256 * t.core.order
    let w1 := (if c.priv then 2 ^ 63 else 0) + (if waits then 2 ^ 61 else 0) + c.wp.toNat
    let s1 := (s.dramSetNum d base 8 c.pc.toNat).dramSetNum d (base + 8) 8 w1
    (s1.modCtx t fun v => { v with suspended := true, cur := none, phase := 0, held := none, asked := none }).park t
      (.until 0 false)

/-- Whether the thread job of a context is suspended, so that it issues nothing more (R338). -/
def State.jobStopped (s : State) (c : Ctx) : Bool :=
  match c.tjob.bind fun j => s.tjobs.get? j with
  | some v => v.state == .suspended
  | none => false

/-- A context stops at an instruction boundary, or with `withdrawn` its waiting instruction is withdrawn (R338): the phase keeps
which. -/
def State.rest (s : State) (t : CtxRef) (withdrawn : Bool) : State :=
  (s.modCtx t fun c => { c with phase := if withdrawn then 1 else 0, cur := none, held := none, asked := none }).park t .rest

/-- A thread of a suspended job that stands on a core after its way home: recorded at home, else at rest until it is sent home
itself (R338). A job that has been resumed meanwhile goes on (R339). -/
def State.preemptHere (s : State) (dest : CoreRef) (v : Traveller) (waits : Bool) : State :=
  let t : CtxRef := if v.home.core = dest then v.home
    else ⟨dest, ((List.range 16).find? fun n => decide ((s.ctx ⟨dest, n⟩).home = some v.home)).getD 0⟩
  if !s.jobStopped (s.ctx t) then s
  else if (s.ctx t).home = none then s.preempt t waits
  else s.rest t waits

/-- A caravan is admitted; a thread that comes home goes on, takes its trap or is pre-empted (R93, R338). -/
def State.land (s : State) (dest : CoreRef) (c : Caravan) : State :=
  let (s1, n) := s.takeIn dest c
  match c.why with
  | .goOn => s1
  | .trap i => s1.enterTrap ⟨dest, n⟩ c.lead.pc i
  | .preempt waits => ((c.lead :: c.followers).zip waits).foldl (fun st x => st.preemptHere dest x.1 x.2) s1

/-- A lost thread resumes at home with caravan-lost: the registers, predicates and privilege of its last departure from
home stand there, and the saved PC is that departure's (R94). It counts as received (R279). -/
def State.resumeLost (s : State) (h : CtxRef) : State :=
  match (s.ctx h).mode, (s.ctx h).departure with
  | .away, some d =>
    let s1 := s.modCtx h fun c => { c with pc := d.pc, priv := d.priv, departure := none, leader := none }
    (s1.enterTrap h d.pc ⟨25, 0, d.addr⟩).countRcvd (s.ctx h).tjob
  | _, _ => s

/-- The threads of a lost caravan whose home device holds the notice resume at home; those that are left (R277). -/
def State.loseTold (s : State) (c : Caravan) : State × List Traveller :=
  let told (v : Traveller) : Bool := c.via.any fun x => s.viaDead x && s.viaTold (v.home.core.dev.getD 0) x
  let all := c.lead :: c.followers
  ((all.filter told).foldl (fun st v => st.resumeLost v.home) s, all.filter fun v => !told v)

/-- A caravan that was lost on its way waits for the notices of its threads' home devices, by an event of its own kind
(R277). -/
def State.astray (s : State) (c : Caravan) (send : State → Caravan → State) : State :=
  match s.loseTold c with
  | (s1, []) => s1
  | (s1, v :: rest) => send s1 { c with lead := v, followers := rest }

/-- A caravan at a core takes its contexts, or waits in the inbox behind those that came before (R243). -/
def State.arriveAt (s : State) (core : CoreRef) (c : Caravan) : State :=
  let box := (s.core core).inbox
  let need := contextsFor c core
  if need = 0 then s.land core c
  else
    match box with
    | [] =>
      if need ≤ (s.freeCtxs core).length then s.land core c
      else s.modCore core fun v => { v with inbox := [acceptedAt core c] }
    | b :: rest =>
      if b = c then
        (if need ≤ (s.freeCtxs core).length then (s.modCore core fun v => { v with inbox := rest }).land core c else s)
      else s.modCore core fun v => { v with inbox := box ++ [acceptedAt core c] }

/-- A caravan reaches a core that may accept it: one that left a pair from a switch lost since then waits for the notice, at which
the partner admits the states that it holds (R284, R287); one whose key is gone is lost (R300). -/
def State.receive (s : State) (core : CoreRef) (c : Caravan) (again : State → Caravan → State) : Out :=
  match s.orphaned c with
  | some o =>
    .next (if s.originTold c o then s.dueAt s.wcc .caravanAdmission (.arrive o.core (s.fromPartner c o)) else again s c)
  | none => .next (if s.discarded core c then s else s.arriveAt core c)

/-- CARAVAN_ADMISSION (R243). One that meets a switch that has failed waits, lost, for the notice (R277); one for a mirrored
range whose pair has no primary waits for it (R288). -/
def execCaravanAdmission (s : State) : Out :=
  match s.ev with
  | .arrive dest c =>
    let again (s : State) (c : Caravan) : State := s.dueAt (s.wcc + 1) .caravanAdmission (.arrive dest c)
    if s.strayed c then
      .next ((s.modCore dest fun v => { v with inbox := v.inbox.filter fun b => !(b == c) }).astray c again)
    else
      match s.redirect dest c with
      | none => .next (again s c)
      | some core => s.receive core c again
  | _ => .next s

/-- CARAVAN_RETURN_HOME (R93): the state is written into the home workspace and the context goes on, takes its trap, or is
pre-empted. Followers whose home is elsewhere need free contexts (R243). -/
def execCaravanReturnHome (s : State) : Out :=
  match s.ev with
  | .caravan c =>
    let again (s : State) (c : Caravan) : State := s.dueAt (s.wcc + 1) .caravanReturnHome (.caravan c)
    if s.strayed c then .next (s.astray c again) else s.receive c.lead.home.core c again
  | _ => .next s

/-- CARAVAN_LOST (R94, R277): the caravan's threads resume at home. -/
def execCaravanLost (s : State) : Out :=
  match s.ev with
  | .caravan c => .next ((c.lead :: c.followers).foldl (fun st v => st.resumeLost v.home) s)
  | _ => .next s

end Sys2Proof.Machine
end

