-- ==== Sys2Proof/Machine/Messages.lean ====
section
/-! DEFINITION. Messages (R95 to R98, R246, R276, R357): SEND, MCAST, RECV, BIND and the events of delivery. -/

namespace Sys2Proof.Machine

/-- A message class of a core. -/
def Core.msgClass (c : Core) (k : Nat) : MsgClass := (c.classes.get? k).getD MsgClass.reset

/-- Changes a message class of a core. -/
def State.modClass (s : State) (c : CoreRef) (k : Nat) (f : MsgClass → MsgClass) : State :=
  s.modCore c fun v => { v with classes := v.classes.put k (f (v.msgClass k)) }

/-- BIND (R97): a class bound to another live context traps as msg-refused. -/
def execBind (g : Guard) (d : Reg) (c : BitVec 3) (s : State) : Out :=
  guarded g 4 s fun s =>
    let k := c.toNat
    let taken : Bool := match ((s.core s.tf.core).msgClass k).bound with
      | some (n, _) => n != s.tf.n && decide ((s.ctx ⟨s.tf.core, n⟩).mode ≠ .free)
      | none => false
    if taken then trapOut s 18 0
    else .next ((s.modClass s.tf.core k fun v => { v with bound := some (s.tf.n, d.toNat) }).retire 4)

/-- The acquire of RECV: package scope, or domain scope for a message from another device (R97). -/
def State.recvAcquire (s : State) (remote : Bool) : State := s.acquire s.tf.core (if remote then 5 else 4)

/-- RECV (R97): a set flag is cleared in one turn; else the context waits for a deposit. For a class that is not bound to the
issuer the spec states nothing else: a set flag is cleared all the same, and a deposit wakes the bound context only. [log 86] -/
def execRecv (g : Guard) (c : BitVec 3) (s : State) : Out :=
  guarded g 4 s fun s =>
    let v := (s.core s.tf.core).msgClass c.toNat
    if v.pending then
      .next (((s.modClass s.tf.core c.toNat fun v => { v with pending := false }).recvAcquire v.remote).retire 4)
    else .next (s.park s.tf (.recv c.toNat))

/-- Sends a message: a release at package or domain scope, then the wait for its acceptance (R97, R98). -/
def sendMessage (w : Word) (m : Message) (s : State) : Out :=
  whenDrained s true fun s =>
    let (n, s1) := (s.useWay s.tf.core (s.memDev s.tf) (m.dest.dev.getD (s.memDev s.tf))).number
    .next (((s1.countSent s.me.tjob).park s.tf (.send w n)).later .messageArrival
      (.message { m with id := n, tjob := s.me.tjob }))

/-- Whether a message can leave for a device: a path is valid (R296). -/
def State.canReach (s : State) (d : Nat) : Bool :=
  d == s.memDev s.tf || (s.path s.tf.core (s.memDev s.tf) d).isSome

/-- SEND (R95, R96, R97): rb + n − 1 above 15 is illegal. -/
def execSend (g : Guard) (a b : Reg) (n : BitVec 4) (s : State) : Out :=
  if 15 < b.toNat + n.toNat then illegal s
  else
    guarded g 4 s fun s =>
      let w := s.reg a
      match destination (s.memDev s.tf) w with
      | none => trapOut s 19 w
      | some c =>
        if !s.canReach (c.dev.getD 0) then trapOut s 19 w
        else
          sendMessage w
            { id := 0, tjob := none, src := s.tf, space := s.me.space, dest := c, cls := destClass w, words := s.messageWords b n,
              remote := wbits w 48 1 == 1, mcast := false, rest := [], refused := false } s

/-- MCAST (R98). -/
def execMcast (g : Guard) (a b : Reg) (n : BitVec 4) (s : State) : Out :=
  if 15 < b.toNat + n.toNat then illegal s
  else
    guarded g 4 s fun s =>
      let w := s.reg a
      match multicast (s.memDev s.tf) w with
      | none => trapOut s 19 w
      | some (d, remote) =>
        match snake d (wbits w 0 22) with
        | [] => trapOut s 19 w
        | c :: rest =>
          if !s.canReach d then trapOut s 19 w
          else
            sendMessage w
              { id := 0, tjob := none, src := s.tf, space := s.me.space, dest := c, cls := wbits w 22 3, words := s.messageWords b n,
                remote := remote, mcast := true, rest := rest, refused := false } s

/-! ## Judging a message at its destination (R97, R357) -/

/-- Whether a firewall entry admits a message (Table 8 of R357). -/
def firewallAdmits (colx0 colx1 : Nat) (e : Word × Word) (m : Message) : Bool :=
  match m.src.core, m.dest with
  | .thread d x y, .thread d' x' y' =>
    d == d' && wbits e.1 63 1 == 1 && wbits e.1 32 31 == 0 && wbits e.1 16 3 == 0 && wbits e.2 22 42 == 0
      && bit (wbits e.1 24 8) m.cls && x' == (if wbits e.1 23 1 = 0 then colx0 else colx1) && y' == wbits e.1 19 4
      && wbits e.1 0 16 == m.space.toNat && inRect (wbits e.2 0 22) x y
  | _, _ => false

/-- Whether the firewall of a device admits a message to one of its column cores (R357). -/
def State.firewall (s : State) (d : Nat) (m : Message) : Bool :=
  let v := s.dev d
  v.fwValid && v.firewall.any fun e => firewallAdmits v.config.colx0 v.config.colx1 e.2 m

/-- Whether a message is refused at its destination (R97). -/
def State.refuses (s : State) (m : Message) : Bool :=
  match ((s.core m.dest).msgClass m.cls).bound with
  | none => true
  | some (n, k) =>
    let outside := s.inColumn m.dest && !(s.inColumn m.src.core && m.src.core.dev == m.dest.dev)
    decide ((s.ctx ⟨m.dest, n⟩).mode = .free) || decide (16 < m.words.length + k)
      || (if outside then !s.firewall ((m.dest.dev).getD 0) m else decide (m.space ≠ (s.ctx ⟨m.dest, n⟩).space))

/-- The reply of a message that has been judged: of SEND at once, of MCAST when its promenade is over (R97, R98). -/
def State.answer (s : State) (m : Message) (refused : Bool) : State :=
  if m.mcast then
    match m.rest with
    | c :: rest => s.later .messageArrival (.message { m with dest := c, rest := rest, refused := m.refused || refused })
    | [] => (s.countRcvd m.tjob).later .mcastAck (.answer m.src m.id (m.refused || refused))
  else (s.countRcvd m.tjob).later .sendReply (.answer m.src m.id (!refused))

/-- Whether no path from a message's device to that of its destination is valid: it then stays at its source (R298). -/
def State.cutOff (s : State) (m : Message) : Bool :=
  match m.src.core.dev, m.dest.dev with
  | some d, some e => d != e && (s.path m.src.core d e).isNone
  | _, _ => false

/-- MESSAGE_ARRIVAL (R97, R276): accepted into the inbound queue, refused, or waiting while 8 messages stand there. -/
def execMessageArrival (s : State) : Out :=
  match s.ev with
  | .message m =>
    if s.cutOff m then .next (s.dueAt (s.wcc + 1) .messageArrival (.message m))
    else if s.refuses m then .next (s.answer m true)
    else if 8 ≤ ((s.core m.dest).msgClass m.cls).queue.length then
      .next (s.dueAt (s.wcc + 1) .messageArrival (.message m))
    else .next ((s.modClass m.dest m.cls fun v => { v with queue := v.queue ++ [m] }).answer m false)
  | _ => .next s

/-! ## Deposits and replies -/

/-- Whether the head of a class's queue may be deposited: the flag is clear and the bound context is not away (R97,
R246). -/
def State.canDeposit (s : State) (c : CoreRef) (k : Nat) : Bool :=
  let v := (s.core c).msgClass k
  match v.bound with
  | some (n, _) => !v.pending && decide (v.queue ≠ []) && decide ((s.ctx ⟨c, n⟩).mode ≠ .away)
  | none => false

/-- Writes a message's words into registers from wk on. -/
def State.depositWords (s : State) (t : CtxRef) (k : Nat) (ws : List Word) : State :=
  { s with pool := s.pool.setBytes (s.workspace t + 8 * k) (ws.map fun w => leBytes 8 w.toNat).flatten }

/-- MESSAGE_DEPOSIT (R97, R276): the words are written in one cycle and the flag is set; a context that waits in RECV on
the class resumes, its flag cleared. -/
def execMessageDeposit (s : State) : Out :=
  match s.ev with
  | .msgClass c k =>
    if s.canDeposit c k then
      let v := (s.core c).msgClass k
      match v.bound, v.queue with
      | some (n, r), m :: rest =>
        let t : CtxRef := ⟨c, n⟩
        let s1 := (s.depositWords t r m.words).modClass c k fun v =>
          { v with queue := rest, pending := true, remote := m.remote }
        if (s.ctx t).mode = .waiting (.recv k) then
          let s2 := { (s1.modClass c k fun v => { v with pending := false }) with tf := t }
          .next ((s2.recvAcquire m.remote).retire 4)
        else .next s1
      | _, _ => .next s
    else .next s
  | _ => .next s

/-- SEND_REPLY (R97): acceptance lets the sender go on, refusal traps it as msg-refused. -/
def execSendReply (s : State) : Out :=
  match s.ev with
  | .answer t id accepted =>
    match (s.ctx t).mode with
    | .waiting (.send w n) =>
      let s1 : State := { s with tf := t }
      if n ≠ id then .next s else if accepted then .next (s1.retire 4) else trapOut s1 18 w
    | _ => .next s
  | _ => .next s

/-- MCAST_ACK (R98): if any core refused, msg-refused with the MCAST word as the fault address. -/
def execMcastAck (s : State) : Out :=
  match s.ev with
  | .answer t id refused =>
    match (s.ctx t).mode with
    | .waiting (.send w n) =>
      let s1 : State := { s with tf := t }
      if n ≠ id then .next s else if refused then trapOut s1 18 w else .next (s1.retire 4)
    | _ => .next s
  | _ => .next s

end Sys2Proof.Machine
end

