-- ==== Sys2Proof/Machine/Tasks.lean ====
section
/-! DEFINITION. Tasks (R99, R100, R238 to R242): the deque, SPAWN, JOIN (R229), TASKEND, local starts, steals and pinned
entries; ATOMIC_REPLY. -/

namespace Sys2Proof.Machine

/-! ## The deque (R238): entries in [BND.S − 512, BND.S) of the core's pool [log 11] -/

/-- Where slot k of a core's deque stands in `pool`. -/
def State.slotAddr (s : State) (c : CoreRef) (k : Nat) : Nat :=
  c.poolBase + ((s.core c).bndS.toNat * 512 - 512) + 8 * (k % 64)

/-- The entry in slot k. -/
def State.slot (s : State) (c : CoreRef) (k : Nat) : Word := toWord (s.pool.num (s.slotAddr c k) 8)

/-- Whether a core's deque is full. -/
def State.dequeFull (s : State) (c : CoreRef) : Bool := decide (64 ≤ (s.core c).dqLen)

/-- An entry: the descriptor's address bits [63:6], and PIN (Table 4 of R238). -/
def dequeEntry (desc : Word) (pin : Bool) : Word := (desc >>> 6 <<< 6) ||| (if pin then 1 else 0)

/-- Whether the port of a core's deque has served its operation of the current cycle (R240). -/
def State.portBusy (s : State) (c : CoreRef) : Bool := (s.core c).dqAt == some s.wcc

/-- Pushes at the bottom; the job's deques-empty bit is cleared (R239, R241). -/
def State.pushBottom (s : State) (c : CoreRef) (e : Word) (job : Option Nat) : State :=
  let v := s.core c
  let s1 : State := { s with pool := s.pool.setNum (s.slotAddr c (v.dqTop + v.dqLen)) 8 e.toNat }
  let s2 := s1.modCore c fun v => { v with dqLen := v.dqLen + 1, dqAt := some s.wcc }
  match job with
  | some j => s2.modTJob j fun t => { t with dqEmpty := false }
  | none => s2

/-- Takes from the bottom. -/
def State.takeBottom (s : State) (c : CoreRef) : Option (Word × State) :=
  let v := s.core c
  if v.dqLen = 0 then none
  else some (s.slot c (v.dqTop + v.dqLen - 1), s.modCore c fun v => { v with dqLen := v.dqLen - 1, dqAt := some s.wcc })

/-- Takes from the top; never an entry with PIN = 1 (R239). -/
def State.takeTop (s : State) (c : CoreRef) : Option (Word × State) :=
  let v := s.core c
  let e := s.slot c v.dqTop
  if v.dqLen = 0 ∨ wbits e 0 1 = 1 then none
  else some (e, s.modCore c fun v => { v with dqTop := (v.dqTop + 1) % 64, dqLen := v.dqLen - 1, dqAt := some s.wcc })

/-! ## Starting a task (R99, R100, R234, R111) -/

/-- The offset in core c's own pool that an address names through an alias, if it does. -/
def State.poolOffset (s : State) (c : CoreRef) (va : Word) : Option Nat :=
  match s.classifyAt c c (c.dev.getD 0) va with
  | .pool k off => if k = c then some off else none
  | _ => none

/-- The eight words of a descriptor as core c reads it: from c's own pool, or at its home slice; none when translation
fails. An address of the self alias names the pool of the core that reads, also for a pinned entry which that core took over
from another. [log 83] -/
def State.descriptor (s : State) (c : CoreRef) (space : BitVec 16) (priv : Bool) (desc : Word) : Option (List Word) :=
  match s.poolOffset c desc with
  | some off => some ((List.range 8).map fun k => toWord (s.pool.num (c.poolBase + off + 8 * k) 8))
  | none =>
    let d := c.dev.getD 0
    match s.classifyAt c c d desc with
    | .dram e remote _ =>
      match s.reach c c d e remote space desc .read 0 priv with
      | .ok pa => some ((List.range 8).map fun k => toWord (s.dramNum e (pa + 8 * k) 8))
      | .error _ => none
    | _ => none

/-- Whether the line of a descriptor that core c reads moves, or the walk of it waits (R313). -/
def State.descMoves (s : State) (c : CoreRef) (space : BitVec 16) (priv : Bool) (desc : Word) : Bool :=
  match s.poolOffset c desc, s.classifyAt c c (c.dev.getD 0) desc with
  | none, .dram e remote _ =>
    s.walkMoves e space desc.toNat || (match s.reach c c (c.dev.getD 0) e remote space desc .read 0 priv with
      | .ok pa => s.moving e pa
      | .error _ => false)
  | _, _ => false

/-- What a task start takes from its thread job: SPACE, TVEC, RECT and the job's number. -/
structure TaskEnv where
  space : BitVec 16
  tvec : Word
  rect : BitVec 22
  tjob : Option Nat
  deriving DecidableEq, Repr

/-- The environment of a thread job's tasks. -/
def TJob.env (j : TJob) (n : Nat) : TaskEnv := { space := j.space, tvec := j.tvec, rect := j.rect, tjob := some n }

/-- The environment of a context's own tasks, for one that belongs to no thread job. -/
def Ctx.env (c : Ctx) : TaskEnv := { space := c.space, tvec := c.tvec, rect := c.rect, tjob := c.tjob }

/-- The environment of the next task of a context: its thread job's SPACE, TVEC and placement rectangle (R111, R234); a context
of the Phoub column, which belongs to no thread job, goes on with its own. [log 84] -/
def State.envOf (s : State) (t : CtxRef) : TaskEnv :=
  match (s.ctx t).tjob with
  | none => (s.ctx t).env
  | some j => ((s.tjobs.get? j).map fun v => v.env j).getD (s.ctx t).env

/-- Starts a task on a context with its descriptor's words: w0 to w3, the PC, the counter, the context registers (R100,
R111); the core's tag ends when the descriptor carries it (R71). A descriptor that fails its checks traps the context as
address-fault, its saved PC word 0 as read; one whose read fails does so too, with a saved PC of 0. [log 115] -/
def State.startTask (s : State) (t : CtxRef) (e : TaskEnv) (priv : Bool) (desc : Word) (ws : Option (List Word)) : State :=
  let w (k : Nat) : Word := ((ws.getD [])[k]?).getD 0
  let bad := ws.isNone || !aligned (w 0) 4 || !isDeviceMemory (w 0) || w 7 != 0
  let s0 := if (s.core t.core).powered then s else s.powerUp t.core
  let c : Ctx :=
    { s.ctx t with
      pc := w 0, wp := BitVec.ofNat 18 (160 * t.n), tvec := e.tvec, priv := priv, space := e.space, rect := e.rect,
      tjob := e.tjob, counter := w 1, cur := none, phase := 0, held := none, asked := none }
  let s1 := s0.setCtx t c
  if bad then s1.enterTrap t (w 0) ⟨causeAddress, 0, desc⟩
  else
    let s2 := ((((s1.setRegOf t 0 (w 2)).setRegOf t 1 (w 3)).setRegOf t 2 (w 4)).setRegOf t 3 (w 5))
    let s3 := s2.modCore t.core fun v =>
      if w 6 ≠ 0 ∧ v.retain = w 6 then { v with retain := 0, retainJob := none } else v
    s3.makeReady t

/-- Starts a task on a context of a core that reads the descriptor itself: now, or when its line no longer moves (R100, R313). -/
def State.beginTask (s : State) (t : CtxRef) (e : TaskEnv) (priv : Bool) (desc : Word) : State :=
  if s.descMoves t.core e.space priv desc then
    (s.modCtx t fun c =>
      { c with tvec := e.tvec, priv := priv, space := e.space, rect := e.rect, tjob := e.tjob, counter := 0, cur := none, phase := 0,
               held := none, asked := none }).park t (.start desc)
  else s.startTask t e priv desc (s.descriptor t.core e.space priv desc)

/-! ## Counters (R100, R229, R230) -/

/-- Where an 8-byte counter stands, or the cause that the checks of an access to it give (R74, R100). -/
def State.counterPlace (s : State) (t : CtxRef) (va : Word) : Except Nat Place :=
  match s.classify t va with
  | .bad c => if c = causeAddress ∨ aligned va 8 then .error c else .error 2
  | p => if aligned va 8 then .ok p else .error 2

/-- The target of an 8-byte counter as a context reaches it, or the trap of an atomic to it (R74, R100, R244). The counter's home
is read and written in place, without migration (R229, R230). A request to a switch that has failed without a notice goes out
unanswered. -/
def State.counterTarget (s : State) (t : CtxRef) (va : Word) (use : Use) : Except (Nat × Nat) Target :=
  match s.counterPlace t va with
  | .error c => .error (c, 0)
  | .ok p =>
    match p with
    | .pool c off =>
      if use = .write ∧ c ≠ t.core ∧ s.spaceRefused t c then .error (20, 0) else .ok (.pool c off)
    | .dram d remote ro =>
      if use = .write ∧ remote ∧ ro then .error (causeProtection, 0)
      else
        match s.reach t.core (s.homeOf t).core (s.memDev t) d remote (s.ctx t).space va use 0 (s.ctx t).priv with
        | .ok pa => .ok (.dram d pa va)
        | .error e => .error e
    | .tier k inc off =>
      match s.tierRoute t k off with
      | .stop c => .error (c, 0)
      | .go c mir =>
        let x : Target := .tier (match c with
            | .switch p _ => p
            | _ => k) mir off
        match s.tierCheck (s.ctx t).space k inc off with
        | some cause => if s.deadBank t k off then .ok x else .error (cause, 0)
        | none => .ok x
    | .window _ _ _ => .error (14, 0)
    | .bad c => .error (c, 0)

/-- Whether the walk of a counter's address waits for X (R313). -/
def State.counterWalks (s : State) (t : CtxRef) (va : Word) : Bool :=
  match s.classify t va with
  | .dram d _ _ => s.walkMoves d (s.ctx t).space va.toNat
  | _ => false

/-- Whether a counter gives no answer now: its bank's switch has failed without a notice (R277), or its line moves or the walk of
it waits (R311, R313). -/
def State.counterHidden (s : State) (t : CtxRef) (va : Word) : Bool :=
  s.silent t va || s.counterWalks t va || (match s.counterTarget t va .write with
    | .ok x => s.targetMoves x
    | .error _ => false)

/-- The network FAA on a counter of the acting context takes its place in the order of a window's accesses (R324). -/
def State.askCounter (s : State) (va : Word) : State :=
  match s.classify s.tf va with
  | .dram d true _ => s.ask d
  | _ => s

/-- Adds to a counter at its home. -/
def State.addCounter (s : State) (t : CtxRef) (x : Target) (v : Nat) : State :=
  ((s.flushTarget t x).atomicAt .faa (some t.core) x 64 v 0).2

/-! ## SPAWN (R100, R230, R242) -/

/-- The core of a thread job that holds a retain tag (R71, R242). -/
def State.tagHolder (s : State) (job : Option Nat) (tag : Word) : Option CoreRef :=
  match job with
  | none => none
  | some j =>
    if tag = 0 then none
    else (s.cores.find? fun e => e.2.retain == tag && e.2.retainJob == some j).map fun e => CoreRef.ofCode e.1

/-- The checks of SPAWN in their order (R100): the trap, or word 1 and the deque that takes the entry. A descriptor in another
core's pool, in the tier or in a pipe's window is refused as address-fault. [log 116] -/
def State.spawnCheck (s : State) (ra : Word) : Except (Nat × Nat × Word) (Word × Option CoreRef) :=
  if !aligned ra 64 then .error (2, 0, ra)
  else
    let place := s.classify s.tf ra
    let inPool := match place with
      | .pool c _ => c == s.tf.core
      | _ => false
    let inDram := match place with
      | .dram _ _ _ => true
      | _ => false
    if !inPool && !inDram then
      .error (match place with
        | .bad c => c
        | _ => causeAddress, 0, ra)
    else
      match s.descriptor s.tf.core s.me.space s.me.priv ra with
      | none => .error (causeAddress, 0, ra)
      | some ws =>
        let w1 := (ws[1]?).getD 0
        let holder := s.tagHolder s.me.tjob ((ws[6]?).getD 0)
        if !aligned w1 8 then .error (2, 0, w1)
        else if s.dequeFull (holder.getD s.tf.core) then .error (21, 0, 0)
        else if w1 = 0 then .ok (w1, holder)
        else
          match s.counterTarget s.tf w1 .write with
          | .error (c, x) => .error (c, x, w1)
          | .ok _ => .ok (w1, holder)

/-- The increment and the push of a SPAWN: no context can take the task before its increment is performed (R230). -/
def State.spawnPush (s : State) (ra w1 : Word) (dest : CoreRef) (pin : Bool) : Out :=
  if s.dequeFull dest then trapOut s 21 0
  else if w1 = 0 then .next ((s.pushBottom dest (dequeEntry ra pin) s.me.tjob).retire 4)
  else
    match s.counterTarget s.tf w1 .write with
    | .error e => trapWith s e w1
    | .ok x => .next (((s.addCounter s.tf x 1).pushBottom dest (dequeEntry ra pin) s.me.tjob).retire 4)

/-- SPAWN (R100): on the home core; a release at package scope, then the checks, the increment as a network FAA, and the
push. -/
def execSpawn (g : Guard) (a : Reg) (s : State) : Out :=
  guarded g 4 s fun s =>
    if s.me.home ≠ none then goHome s s.me.pc
    else
      whenDrained s true fun s =>
        let ra := s.reg a
        if s.descMoves s.tf.core s.me.space s.me.priv ra then .next (s.pause .again) else
        match s.spawnCheck ra with
        | .error (c, x, va) => trapWith s (c, x) va
        | .ok (w1, some core) =>
          .next (((if w1 = 0 then s else s.askCounter w1).park s.tf (.reply ra w1)).later .pinnedEntryAccept (.ctxCore s.tf core))
        | .ok (w1, none) =>
          if w1 ≠ 0 then .next (((s.askCounter w1).park s.tf (.reply ra w1)).later .atomicReply (.ctx s.tf 0))
          else if s.portBusy s.tf.core then .next (s.pause .again)
          else s.spawnPush ra 0 s.tf.core false

/-- PINNED_ENTRY_ACCEPT (R242): the holding core's deque accepts the entry, or a full one traps the spawner. -/
def execPinnedEntryAccept (s : State) : Out :=
  match s.ev with
  | .ctxCore t core =>
    match (s.ctx t).mode with
    | .waiting (.reply ra w1) =>
      if (w1 != 0 && s.counterHidden t w1) || s.portBusy core || s.askedEarlier t then
        .next (s.dueAt (s.wcc + 1) .pinnedEntryAccept (.ctxCore t core))
      else ({ s with tf := t } : State).spawnPush ra w1 core true
    | _ => .next s
  | _ => .next s

/-! ## JOIN (R100, R229) -/

/-- The value of a counter at its home (R229). -/
def State.counterValue (s : State) (t : CtxRef) (va : Word) : Except (Nat × Nat) Nat :=
  match s.counterTarget t va .read with
  | .error e => .error e
  | .ok x => .ok (leNat (s.targetGet x 8))

/-- The acting context's own queued stores to a counter's word are performed first (R78); none when one must wait for X of an
interleave change (R311). -/
def State.settleCounter (s : State) (va : Word) : Option State :=
  match s.counterTarget s.tf va .read with
  | .error _ => some s
  | .ok x =>
    if !(s.me.stores.any fun e => (List.range 8).any fun i => (e.byteFor x i).isSome) then some s
    else if s.waitsForX s.tf x then none
    else some (s.flushTarget s.tf x)

/-- The acquire of JOIN: package scope, domain scope for a tier counter. -/
def State.endJoin (s : State) : State := (s.acquire s.tf.core 4).retire 4

/-- JOIN (R100, R229). -/
def execJoin (g : Guard) (a : Reg) (s : State) : Out :=
  guarded g 4 s fun s => whenUnmarked s fun s =>
    let va := s.reg a
    match s.settleCounter va with
    | none => .next (s.pause .again)
    | some s =>
      match s.counterValue s.tf va with
      | .error e => trapWith s e va
      | .ok v => if v = 0 ∧ !s.counterHidden s.tf va then .next s.endJoin else .next (s.park s.tf (.join va none))

/-- JOIN_RELEASE (R229, R277): the counter reads 0 and the waiter goes on; one that can no longer be read traps. -/
def execJoinRelease (s : State) : Out :=
  match s.ev with
  | .ctx t _ =>
    match (s.ctx t).mode with
    | .waiting (.join va _) =>
      let s := { s with tf := t }
      match s.counterValue t va with
      | .error e => trapWith s e va
      | .ok v =>
        if v = 0 ∧ !s.counterHidden t va then .next s.endJoin
        else .next (s.modCtx t fun c => { c with mode := .waiting (.join va none) })
    | _ => .next s
  | _ => .next s

/-! ## TASKEND (R100, R241) -/

/-- Whether the tasks of a core's deque start in privileged mode: those of the Phoub column do (R356), those of a thread job start
in user mode, as its root does (R234). [log 117] -/
def State.taskPriv (s : State) (c : CoreRef) : Bool := s.inColumn c

/-- A context whose task has ended takes the next one from its own deque, waits as a thief, or halts (R241). -/
def State.nextTask (s : State) : State :=
  let t := s.tf
  match s.takeBottom t.core with
  | some (e, s1) =>
    let desc := e >>> 6 <<< 6
    s1.beginTask t (s.envOf t) (s.taskPriv t.core) desc
  | none =>
    let empty := match (s.ctx t).tjob with
      | none => true
      | some j => ((s.tjobs.get? j).map fun v => v.dqEmpty).getD true
    let probing := ((s.core t.core).steal.map fun v => v.probing.isSome).getD false
    if s.inColumn t.core || (empty && !probing) then s.haltCtx t else s.park t .steal

/-- TASKEND (R100): on the home core; the deferred fault, the drain, the counter's decrement as a release, the next task. -/
def execTaskend (g : Guard) (s : State) : Out :=
  guarded g 4 s fun s =>
    if s.me.home ≠ none then goHome s s.me.pc
    else
      whenDrained s true fun s => whenNoFailure s fun s =>
        let va := s.me.counter
        if va = 0 then .next (if s.portBusy s.tf.core then s.pause .again else s.nextTask)
        else
          match s.counterTarget s.tf va .write with
          | .error e => trapWith s e va
          | .ok _ => .next (((s.askCounter va).park s.tf (.reply va 0)).later .atomicReply (.ctx s.tf 0))

/-- The decrement of TASKEND has been performed. -/
def State.endTask (s : State) (va : Word) : Out :=
  match s.counterTarget s.tf va .write with
  | .error e => trapWith s e va
  | .ok x =>
    let s1 := s.addCounter s.tf x (2 ^ 64 - 1)
    .next (s1.modCtx s.tf fun c => { c with counter := 0 }).nextTask

/-- A network FAA on a task counter is performed: when the counter's home answers, the port of the core's deque is free (R240),
and no earlier access of the core through the window stands before it (R324). One to a moving line is held (R311). -/
def State.whenCounted (s : State) (t : CtxRef) (va : Word) (k : State → Out) : Out :=
  match s.counterTarget t va .write with
  | .ok (.dram d pa x) =>
    if s.targetMoves (.dram d pa x) then .next (s.holdMoved d t)
    else if s.counterWalks t va then .next (s.dueAt (s.wcc + 1) .atomicReply (.ctx t 0))
    else if s.portBusy t.core || s.askedEarlier t then .next (s.dueAt (s.wcc + 1) .atomicReply (.ctx t 0))
    else k s
  | _ => if s.silent t va || s.portBusy t.core then .next (s.dueAt (s.wcc + 1) .atomicReply (.ctx t 0)) else k s

/-- ATOMIC_REPLY (R85, R230, R268): a network FAA is performed at the home slice and its reply returns: of FAA itself, of
SPAWN's increment, of TASKEND's decrement. -/
def execAtomicReply (s : State) : Out :=
  match s.ev with
  | .ctx t _ =>
    match (s.ctx t).mode, (s.ctx t).cur with
    | .waiting (.atomic d pa va v), some i =>
      match atomicForm i with
      | some f =>
        if s.askedEarlier t then .next (s.dueAt (s.wcc + 1) .atomicReply (.ctx t 0))
        else if s.waitsForX t (.dram d pa va) then .next (s.holdMoved d t)
        else atomicHere f v.toNat (.dram d pa va) { s with tf := t }
      | none => .next s
    | .waiting (.reply ra w1), some (.spawn _ _) =>
      s.whenCounted t w1 fun s => ({ s with tf := t } : State).spawnPush ra w1 t.core false
    | .waiting (.reply va _), some (.taskend _) => s.whenCounted t va fun s => ({ s with tf := t } : State).endTask va
    | _, _ => .next s
  | _ => .next s

/-! ## Local starts and steals (R239, R240) -/

/-- The thread job whose steal set a core is in. -/
def State.stealJob (s : State) (c : CoreRef) : Option (Nat × TJob) :=
  match (s.core c).steal with
  | none => none
  | some v => (s.tjobs.get? v.tjob).map fun j => (v.tjob, j)

/-- Whether a core is in a thread job's steal set. -/
def State.inSet (s : State) (j : Nat) (c : CoreRef) : Bool :=
  match (s.core c).steal with
  | none => false
  | some x => x.tjob == j

/-- Whether a core only holds a retain tag: with no live context it is no member of the steal set, neither thief nor victim, and
keeps its pool for the tasks that carry the tag (R71, R234, R238). -/
def State.onlyRetains (s : State) (c : CoreRef) : Bool := (s.core c).retain != 0 && !s.coreLive c

/-- The context of a core that waits in TASKEND, the lowest first. -/
def State.waitingThief (s : State) (c : CoreRef) : Option Nat :=
  (List.range 16).find? fun n => decide ((s.ctx ⟨c, n⟩).mode = .waiting .steal) && !(s.ctx ⟨c, n⟩).suspended

/-- The free context on which a core may start a task: the lowest, when at least 2 are free (R239, R243). -/
def State.startContext (s : State) (c : CoreRef) : Option Nat :=
  match s.freeCtxs c with
  | n :: _ :: _ => some n
  | _ => none

/-- The context on which a stolen task starts: one that waits in TASKEND, else a free one (R240, R241). -/
def State.stealContext (s : State) (c : CoreRef) : Option Nat := (s.waitingThief c).orElse fun _ => s.startContext c

/-- The environment of a task that a core starts from its own deque: that of its running thread job; a core of the Phoub column,
which is in no steal set (R241), goes on with that of its lowest live context. [log 84] -/
def State.localEnv (s : State) (c : CoreRef) : Option TaskEnv :=
  match s.stealJob c with
  | some (j, job) => if job.state = .running then some (job.env j) else none
  | none =>
    if s.inColumn c then
      ((List.range 16).find? fun n => decide ((s.ctx ⟨c, n⟩).mode ≠ .free)).map fun n => (s.ctx ⟨c, n⟩).env
    else none

/-- Whether a core has made a local start in the last 16 cycles (R239). -/
def State.startedLately (s : State) (c : CoreRef) : Bool :=
  match (s.core c).lastLocal with
  | some l => decide (s.wcc < l + 16)
  | none => false

/-- LOCAL_START (R239): at most one in 16 cycles. -/
def execLocalStart (s : State) : Out :=
  match s.ev with
  | .core c =>
    match s.localEnv c, s.startContext c with
    | some env, some n =>
      if s.startedLately c then .next s
      else if s.portBusy c then .next (s.dueAt (s.wcc + 1) .localStart (.core c))
      else
        match s.takeBottom c with
        | none => .next s
        | some (e, s1) =>
          let desc := e >>> 6 <<< 6
          let s2 := s1.modCore c fun v => { v with lastLocal := some s.wcc }
          .next (s2.beginTask ⟨c, n⟩ env (s.taskPriv c) desc)
    | _, _ => .next s
  | _ => .next s

/-- Every context of a core that waits in TASKEND halts: the job has no task left (R241). -/
def State.haltWaiters (s : State) (c : CoreRef) : State :=
  (List.range 16).foldl
    (fun st n =>
      if (st.ctx ⟨c, n⟩).mode = .waiting .steal ∧ !(st.ctx ⟨c, n⟩).suspended then st.haltCtx ⟨c, n⟩ else st) s

/-- The bound of a probe (R239). -/
def probeBound (a b : CoreRef) : Nat := if a.die = b.die then 120 else 200

/-- STEAL_PROBE (R239): a thief has at most one probe outstanding, which ends within its bound. -/
def execStealProbe (s : State) : Out :=
  match s.ev with
  | .thief c victim =>
    match (s.core c).steal with
    | some v =>
      if v.probing.isSome then .next s
      else
        let last := s.wcc + probeBound c victim
        let s1 := s.modCore c fun k => { k with steal := some { v with probing := some last, first := some (v.first.getD s.wcc) } }
        .next (s1.within (probeBound c victim) .stealProbeComplete (.thief c victim))
    | none => .next s
  | _ => .next s

/-- A probe is over: the core may probe again, and the victim's port, if it served the probe, has served its operation of the
cycle (R239, R240). -/
def State.endProbe (s : State) (c victim : CoreRef) (served : Bool) : State :=
  let s1 := s.modCore c fun k => { k with steal := k.steal.map fun v => { v with probing := none } }
  if served then s1.modCore victim fun k => { k with dqAt := some s.wcc } else s1

/-- STEAL_PROBE_COMPLETE (R240, R241): the probe takes the top entry and starts its task, or fails. The descriptor's bytes
come along when they lie in the victim's pool. A probe of a job that no longer runs takes nothing (R338), and one whose bound ends
while the port serves others fails. [log 114] -/
def execStealProbeComplete (s : State) : Out :=
  match s.ev with
  | .thief c victim =>
    match (s.core c).steal, s.stealJob c with
    | some v, some (j, job) =>
      if v.probing.isNone then .next s
      else
        let s0 := s.endProbe c victim (!s.portBusy victim)
        let entry := if job.state = .running ∧ s.inSet j victim ∧ !s.portBusy victim then s0.takeTop victim else none
        match s0.stealContext c, entry with
        | some n, some (e, s1) =>
          let desc := e >>> 6 <<< 6
          let s2 := (s1.countSent (some j)).countRcvd (some j)
          .next (match s.poolOffset victim desc with
            | some _ => s2.startTask ⟨c, n⟩ (job.env j) false desc (s.descriptor victim job.space false desc)
            | none => s2.beginTask ⟨c, n⟩ (job.env j) false desc)
        | _, _ => .next (if job.dqEmpty ∧ job.state = .running then s0.haltWaiters c else s0)
    | _, _ => .next s
  | _ => .next s

end Sys2Proof.Machine
end

