-- ==== Sys2Proof/Machine/Engines.lean ====
section
/-! DEFINITION. The asynchronous engines of a core (R101, R102, R269): EPUSH, EPOP, copies, gathers, collectives. -/

namespace Sys2Proof.Machine

/-- An engine of a core. -/
def Core.engine (c : Core) (e : CoreEngine) : EngineState :=
  match e with
  | .copy => c.copy
  | .gather => c.gather
  | .coll => c.coll

/-- Changes an engine of a core. -/
def State.modEngine (s : State) (c : CoreRef) (e : CoreEngine) (f : EngineState → EngineState) : State :=
  s.modCore c fun v =>
    match e with
    | .copy => { v with copy := f v.copy }
    | .gather => { v with gather := f v.gather }
    | .coll => { v with coll := f v.coll }

/-- EPUSH (R101): a release of every earlier store, then the command's 64 bytes, read in the own pool; it waits while 16
commands stand in the FIFO. An own pool on another core is gone home to (R74). -/
def epush (e : CoreEngine) (g : Guard) (a : Reg) (s : State) : Out :=
  guarded g 4 s fun s =>
    let va := s.reg a
    match s.aim va 64 with
    | .error c => trapOut s c va
    | .ok (.pool c off) =>
      if c ≠ s.aliasCore s.tf then trapOut s causeAddress va
      else if c ≠ s.tf.core then goHome s s.me.pc
      else
        whenDrained s true fun s =>
          if 16 ≤ ((s.core c).engine e).fifo.length then .next (s.pause (.push e))
          else
            let (id, s1) := s.number
            let cmd : EngineCommand :=
              { id := id, owner := s.tf.n, space := s.me.space, priv := s.me.priv, tjob := s.me.tjob,
                words := (List.range 8).map fun k => toWord (s.pool.num (c.poolBase + off + 8 * k) 8), left := [], due := [],
                got := [] }
            .next (((s1.modEngine c e fun v => { v with fifo := v.fifo ++ [cmd] }).later .engineCommandStart
              (.engine c e)).retire 4)
    | .ok _ => trapOut s causeAddress va

/-- EPUSH.copy (R101). -/
def execEpushCopy (g : Guard) (a : Reg) (s : State) : Out := epush .copy g a s
/-- EPUSH.gather (R101). -/
def execEpushGather (g : Guard) (a : Reg) (s : State) : Out := epush .gather g a s
/-- EPUSH.coll (R101). -/
def execEpushColl (g : Guard) (a : Reg) (s : State) : Out := epush .coll g a s

/-- EPOP (R101, R269): waits while the result FIFO is empty. It acquires the element and what its engine wrote for it: the
engine's writes have updated the core's own L1 copies. [log 33] -/
def epop (e : CoreEngine) (g : Guard) (d : Reg) (s : State) : Out :=
  guarded g 4 s fun s =>
    let c := s.tf.core
    match ((s.core c).engine e).results with
    | [] => .next (s.pause (.pop e))
    | v :: rest => .next (((s.modEngine c e fun k => { k with results := rest }).setReg d v).retire 4)

/-- EPOP.copy (R101). -/
def execEpopCopy (g : Guard) (d : Reg) (s : State) : Out := epop .copy g d s
/-- EPOP.gather (R101). -/
def execEpopGather (g : Guard) (d : Reg) (s : State) : Out := epop .gather g d s
/-- EPOP.coll (R101). -/
def execEpopColl (g : Guard) (d : Reg) (s : State) : Out := epop .coll g d s

/-! ## Ranges (R102, R321) -/

/-- The class of an address in Table 1 of R73, as far as a range may not straddle it: a pool and its core, device memory,
the tier, or the cause. -/
inductive RangeClass where
  | pool (c : CoreRef)
  | hbm
  | tier
  | bad (cause : Nat)
  deriving DecidableEq, Repr

/-- The class of an address for an engine of a core. -/
def State.rangeClass (s : State) (c : CoreRef) (va : Word) : RangeClass :=
  match s.classifyAt c c (c.dev.getD 0) va with
  | .pool k _ => .pool k
  | .dram _ _ _ => .hbm
  | .tier _ _ _ => .tier
  | .window _ _ _ => .bad 14
  | .bad x => .bad x

/-- The target of an address for an engine of core c, of a space, or the cause. -/
def State.engineTarget (s : State) (c : CoreRef) (space : BitVec 16) (va : Word) (use : Use) : Except Nat Target :=
  match s.classifyAt c c (c.dev.getD 0) va with
  | .pool k off => .ok (.pool k off)
  | .dram d remote ro =>
    if use = .write ∧ remote ∧ ro then .error causeProtection
    else
      match s.reach c c (c.dev.getD 0) d remote space va use 2 false with
      | .ok pa => .ok (.dram d pa va)
      | .error x => .error x.1
  | .tier k inc off =>
    match s.tierRoute ⟨c, 0⟩ k off with
    | .stop x => .error x
    | .go k' mir =>
      match s.tierCheck space k inc off with
      | some x => .error x
      | none => .ok (.tier (match k' with
          | .switch p _ => p
          | _ => k) mir off)
  | .window _ _ _ => .error 14
  | .bad x => .error x

/-- The bytes of [va, va + n), piece by piece of at most 64 KiB; the cause of the first piece that fails. -/
def State.readRange (s : State) (c : CoreRef) (space : BitVec 16) : Nat → Nat → Nat → Except Nat (List Byte)
  | 0, _, _ => .ok []
  | k + 1, va, n =>
    if n = 0 then .ok []
    else
      let m := Nat.min ((va / 65536 + 1) * 65536 - va) n
      match s.engineTarget c space (toWord va) .read with
      | .error x => .error x
      | .ok t => (s.readRange c space k (va + m) (n - m)).map fun bs => s.targetGet t m ++ bs

/-- The cause with which an access of [va, va + n) fails at one of its pages, if one does. -/
def State.rangeCause (s : State) (c : CoreRef) (space : BitVec 16) (use : Use) : Nat → Nat → Nat → Option Nat
  | 0, _, _ => none
  | k + 1, va, n =>
    if n = 0 then none
    else
      let m := Nat.min ((va / 65536 + 1) * 65536 - va) n
      match s.engineTarget c space (toWord va) use with
      | .error x => some x
      | .ok _ => s.rangeCause c space use k (va + m) (n - m)

/-- Whether [va, va + n) meets a moving line (R311, R313). -/
def State.rangeMoves (s : State) (c : CoreRef) (space : BitVec 16) (va n : Nat) (use : Use) : Bool :=
  (s.devs.any fun e => (e.2.change.map fun x => x.pending).getD false)
    && (List.range (n / 128 + 2)).any fun i =>
      let a := toWord (Nat.min (va + 128 * i) (va + n - 1))
      (match s.classifyAt c c (c.dev.getD 0) a with
        | .dram d _ _ => s.walkMoves d space a.toNat
        | _ => false)
      || (match s.engineTarget c space a use with
        | .ok x => s.targetMoves x
        | .error _ => false)

/-- Writes bytes to [va, va + n), piece by piece; the core's own L1 copies are updated (R258). -/
def State.writeRange (s : State) (c : CoreRef) (space : BitVec 16) : Nat → Nat → List Byte → Except Nat State
  | 0, _, _ => .ok s
  | k + 1, va, bs =>
    if bs = [] then .ok s
    else
      let m := Nat.min ((va / 65536 + 1) * 65536 - va) bs.length
      match s.engineTarget c space (toWord va) .write with
      | .error x => .error x
      | .ok t => (s.targetSet (some c) t (bs.take m)).writeRange c space k (va + m) (bs.drop m)

/-! ## Commands (Table 5 of R101, R102) -/

/-- Word k of a command. -/
def EngineCommand.word (c : EngineCommand) (k : Nat) : Word := (c.words[k]?).getD 0

/-- Whether a command's kind is k, the bits of word 0 outside `mask` and the words from `n` on are zero (R102). -/
def EngineCommand.formed (c : EngineCommand) (k : Nat) (mask : Word) (n : Nat) : Bool :=
  wbits (c.word 0) 56 8 == k && (c.word 0 &&& ~~~mask) == 0
    && (c.words.drop n).all fun w => w == 0

/-- The cores of a collective's scope: a rectangle, or the thread cluster of the issuer (R101, R260). -/
def scopeCores (c : CoreRef) (w : Word) : List CoreRef :=
  match c with
  | .thread d x y =>
    if scopeLevel w = 2 then
      let (x0, y0, x1, y1) := rectOf (wbits w 0 22)
      ((List.range (y1 + 1 - y0)).map fun r => (List.range (x1 + 1 - x0)).map fun i =>
        CoreRef.thread d (x0 + i) (y0 + r)).flatten
    else
      ((List.range 8).map fun r => (List.range 16).map fun i =>
        CoreRef.thread d (x / 16 * 16 + i) (y / 8 * 8 + r)).flatten
  | _ => []

/-- What a command that reaches the head of its FIFO is found to be (R102). -/
inductive Verdict where
  | good
  /-- It fails with a cause that Table 1 of R73 or R317 gives. -/
  | fails (cause : Nat)
  /-- It fails on its kind, an MBZ word or a limit, for which no cause code is stated. -/
  | malformed
  deriving DecidableEq, Repr

/-- Checks a range of n bytes: a class that stops it, or two classes. -/
def State.checkRange (s : State) (c : CoreRef) (va : Word) (n : Nat) : Verdict :=
  match s.rangeClass c va, s.rangeClass c (va + BitVec.ofNat 64 (n - 1)) with
  | .bad x, _ => .fails x
  | _, .bad x => .fails x
  | a, b => if a = b ∧ va.toNat + n ≤ 2 ^ 56 then .good else .fails 6

/-- Both verdicts must be good. -/
def Verdict.and (a b : Verdict) : Verdict := if a = .good then b else a

/-- The checks of a command (R102). -/
def State.checkCommand (s : State) (c : CoreRef) (e : CoreEngine) (m : EngineCommand) : Verdict :=
  match e with
  | .copy =>
    let n := (m.word 3).toNat
    if !m.formed 1 (0xFF00000000000001) 5 || n == 0 || decide (2 ^ 32 < n) then .malformed
    else
      match (s.checkRange c (m.word 1) n).and (s.checkRange c (m.word 2) n) with
      | .good =>
        match s.rangeCause c m.space .read (pagesOf (m.word 1).toNat n) (m.word 1).toNat n with
        | some x => .fails x
        | none =>
          match s.rangeCause c m.space .write (pagesOf (m.word 2).toNat n) (m.word 2).toNat n with
          | some x => .fails x
          | none => .good
      | v => v
  | .gather =>
    let n := (m.word 3).toNat
    if !m.formed 2 (0xFF00000000000003) 4 || n == 0 || decide (4096 < n) then .malformed
    else
      match s.poolOffset c (m.word 2), s.rangeClass c (m.word 1) with
      | none, _ => .fails causeAddress
      | some _, .bad x => .fails x
      | some _, _ => s.checkRange c (m.word 2) (4 * n)
  | .coll =>
    if !m.formed 3 (0xFF00000000000300) 4 || !scopeLegal (m.word 1)
        || !(scopeLevel (m.word 1) == 2 || scopeLevel (m.word 1) == 3) then .malformed
    else .good

/-- The error element of a failed command (R102). -/
def errorElement (cause : Nat) : Word := toWord (0xFFFFFFFF00000000 + cause)

/-- Whether two ranges of pool or scratchpad bytes overlap (R102). -/
def State.rangesMeet (s : State) (c : CoreRef) (a b : EngineCommand) : Bool :=
  let range (m : EngineCommand) (k : Nat) : Option (Nat × Nat) :=
    match s.classifyAt c c (c.dev.getD 0) (m.word k) with
    | .pool p off => some (p.poolBase + off, (m.word 3).toNat)
    | _ => none
  [1, 2].any fun i => [1, 2].any fun j =>
    match range a i, range b j with
    | some (x, n), some (y, k) => decide (x < y + k) && decide (y < x + n)
    | _, _ => false

/-- The key of a collective: sequence number, space, operation, device, cores (R101). -/
def collKey (c : CoreRef) (m : EngineCommand) : Nat :=
  let w := m.word 1
  let region := if scopeLevel w = 2 then 2 * wbits w 0 22 + 1 else
    match c with
    | .thread _ x y => 2 * clusterOf x y
    | _ => 0
  (m.word 3).toNat + 2 ^ 64 * (m.space.toNat + 2 ^ 16 * (wbits (m.word 0) 8 2 + 4 * (c.dev.getD 0 + 256 * region)))

/-- Starts the engine again when commands are left in its FIFO. -/
def State.kick (s : State) (c : CoreRef) (e : CoreEngine) : State :=
  if ((s.core c).engine e).fifo = [] then s else s.later .engineCommandStart (.engine c e)

/-- ENGINE_COMMAND_START (R102): the command at the head is checked; a failed one does nothing and pushes an error
element. A copy that overlaps an earlier one in a pool is held back; a gather follows the one before it. -/
def execEngineCommandStart (s : State) : Out :=
  match s.ev with
  | .engine c e =>
    let v := (s.core c).engine e
    match v.fifo with
    | [] => .next s
    | m :: rest =>
      let again := s.dueAt (s.wcc + 1) .engineCommandStart (.engine c e)
      let verdict := s.checkCommand c e m
      match verdict with
      | .good =>
        let s1 := s.modEngine c e fun k => { k with fifo := rest, active := k.active ++ [m] }
        match e with
        | .copy =>
          if v.active.any fun a => s.rangesMeet c a m then .next again
          else
            let m := { m with left := [(0, (m.word 3).toNat)], due := [(0, (m.word 3).toNat)] }
            let s1 := s.modEngine c e fun k => { k with fifo := rest, active := k.active ++ [m] }
            .next ((s1.later .copyCommandComplete (.command c m.id)).kick c e)
        | .gather =>
          if v.active ≠ [] then .next again
          else .next ((s1.modEngine c e fun k => { k with next := 0 }).later .gatherElementPush (.core c))
        | .coll =>
          let key := collKey c m
          let list := (s.colls.get? key).getD [] ++ [(c, m.id, 0, m.word 2)]
          let s2 : State := { s1 with colls := s1.colls.put key list }
          let full := (scopeCores c (m.word 1)).all fun k => list.any fun x => x.1 == k
          .next ((if full then s2.later .collectiveComplete (.key key) else s2).kick c e)
      | _ =>
        if 32 ≤ v.results.length then .next again
        else
          let cause := match verdict with
            | .fails x => x
            | _ => 1 + Config.choice s.fresh % 31
          let s1 := ({ s with fresh := s.fresh + 1 } : State).modEngine c e fun k =>
            { k with fifo := rest, results := k.results ++ [errorElement cause] }
          .next (s1.kick c e)
  | _ => .next s

/-- Takes [a, a + m) out of a list of ranges that holds it in one range. -/
def cutRange (l : List (Nat × Nat)) (a m : Nat) : List (Nat × Nat) :=
  l.flatMap fun r =>
    if r.1 ≤ a ∧ a + m ≤ r.1 + r.2 then
      (if r.1 < a then [(r.1, a - r.1)] else []) ++ (if a + m < r.1 + r.2 then [(a + m, r.1 + r.2 - (a + m))] else [])
    else [r]

/-- A free piece of one of the ranges of a transfer whose first byte lies at address va: whole words of the memory it lies in, as
far as the range has them (R256); the first choices give the whole first range. -/
def State.piece (s : State) (l : List (Nat × Nat)) (va : Nat) : (Nat × Nat) × State :=
  let (k, s1) := s.pick l.length
  let r := (l[k]?).getD (0, 0)
  let words := (va + r.1 + r.2 + 7) / 8 - (va + r.1) / 8
  let (i, s2) := s1.pick words
  let (j, s3) := s2.pick (words - i)
  let lo := Nat.max (va + r.1) (((va + r.1) / 8 + i) * 8) - va
  let hi := Nat.min (va + r.1 + r.2) (((va + r.1) / 8 + words - j) * 8) - va
  ((lo, hi - lo), s3)

/-- Changes an active copy of a core. -/
def State.modCopy (s : State) (c : CoreRef) (id : Nat) (f : EngineCommand → EngineCommand) : State :=
  s.modEngine c .copy fun k => { k with active := k.active.map fun a => if a.id = id then f a else a }

/-- A copy is over: it leaves the engine, and what it pushes stands in the result FIFO. -/
def State.endCopy (s : State) (c : CoreRef) (id : Nat) (push : List Word) : State :=
  s.modEngine c .copy fun k =>
    { k with active := k.active.filter fun a => a.id != id, results := k.results ++ push }

/-- A copy reads a piece of its source (R269), or the cause with which the piece fails; none while a line of it moves. -/
def State.copyRead (s : State) (c : CoreRef) (m : EngineCommand) : Except Nat (Option State) :=
  let va := (m.word 1).toNat
  let ((o, n), s1) := s.piece m.left va
  if s.rangeMoves c m.space (va + o) n .read then .ok none
  else (s.readRange c m.space (pagesOf (va + o) n) (va + o) n).map fun bs =>
    some (s1.modCopy c m.id fun a => { a with left := cutRange a.left o n, got := a.got.setBytes o bs })

/-- A copy writes a piece of its destination, all of which it has read (R269). -/
def State.copyWrite (s : State) (c : CoreRef) (m : EngineCommand) (o n : Nat) : Except Nat (Option State) :=
  let va := (m.word 2).toNat
  if s.rangeMoves c m.space (va + o) n .write then .ok none
  else (s.writeRange c m.space (pagesOf (va + o) n) (va + o) (m.got.getBytes o n)).map fun s1 =>
    some (s1.modCopy c m.id fun a => { a with due := cutRange a.due o n, got := a.got.clear o n })

/-- What a copy does next: it reads a piece, or writes one that it has read, in any order (R256, R269). -/
def State.copyStep (s : State) (c : CoreRef) (m : EngineCommand) : Except Nat (Option State) :=
  let (w, s1) := s.pick 2
  let ((o, n), s2) := s1.piece m.due (m.word 2).toNat
  let read := !(m.left.any fun r => decide (r.1 < o + n) && decide (o < r.1 + r.2))
  if read ∧ (w = 1 ∨ m.left = []) then s2.copyWrite c m o n else s1.copyRead c m

/-- COPY_COMMAND_COMPLETE (R101, R269): a piece of the copy is read or written. When the last has been written the copy
completes, and with NOTIFY its tag is pushed; a piece that fails ends it with an error element. [log 87] -/
def execCopyCommandComplete (s : State) : Out :=
  match s.ev with
  | .command c id =>
    let v := (s.core c).copy
    match v.active.find? fun m => m.id == id with
    | none => .next s
    | some m =>
      let again (s : State) : State := s.dueAt (s.wcc + 1) .copyCommandComplete (.command c id)
      let full := decide (32 ≤ v.results.length)
      if m.due = [] then
        (if wbits (m.word 0) 0 1 = 0 then .next (s.endCopy c id [])
        else .next (if full then again s else s.endCopy c id [m.word 4]))
      else
        match s.copyStep c m with
        | .error x => .next (if full then again s else s.endCopy c id [errorElement x])
        | .ok none => .next (again s)
        | .ok (some s1) => .next (s1.later .copyCommandComplete (.command c id))
  | _ => .next s

/-- GATHER_ELEMENT_PUSH (R101): mem[base + index × size], zero-extended, when the result FIFO has room. An element that
cannot be read ends the command with an error element. [log 23] -/
def execGatherElementPush (s : State) : Out :=
  match s.ev with
  | .core c =>
    let v := (s.core c).gather
    match v.active with
    | [] => .next s
    | m :: _ =>
      if 32 ≤ v.results.length then .next (s.dueAt (s.wcc + 1) .gatherElementPush (.core c))
      else
        let size := 2 ^ wbits (m.word 0) 0 2
        let index := match s.poolOffset c (m.word 2) with
          | some off => s.pool.num (c.poolBase + off + 4 * v.next) 4
          | none => 0
        let va := m.word 1 + BitVec.ofNat 64 (index * size)
        let last := decide ((m.word 3).toNat ≤ v.next + 1)
        let push (w : Word) (stop : Bool) : State :=
          let s1 := s.modEngine c .gather fun k =>
            { k with results := k.results ++ [w], next := k.next + 1, active := if stop then k.active.drop 1 else k.active }
          if stop then s1.kick c .gather else s1.later .gatherElementPush (.core c)
        if s.rangeMoves c m.space va.toNat size .read then .next (s.dueAt (s.wcc + 1) .gatherElementPush (.core c))
        else
          match s.readRange c m.space (pagesOf va.toNat size) va.toNat size with
          | .error x => .next (push (errorElement x) true)
          | .ok bs => .next (push (toWord (leNat bs)) last)
  | _ => .next s

/-- The result of a collective over its values in core order (R101). -/
def collResult (op : Nat) (vs : List Word) : Word :=
  match vs with
  | [] => 0
  | v :: rest =>
    rest.foldl (fun a b =>
      match op with
      | 0 => a + b
      | 1 => toWord (f64.add .rne a.toNat b.toNat)
      | 2 => if BitVec.slt b a then b else a
      | _ => if BitVec.slt a b then b else a) v

/-- COLLECTIVE_COMPLETE (R101): every core of the scope has pushed the number; each receives the result. -/
def execCollectiveComplete (s : State) : Out :=
  match s.ev with
  | .key key =>
    match s.colls.get? key with
    | none => .next s
    | some list =>
      let cores := (list.map fun x => x.1).eraseDups
      if cores.any fun c => decide (32 ≤ (s.core c).coll.results.length) then
        .next (s.dueAt (s.wcc + 1) .collectiveComplete (.key key))
      else
        let part := cores.filterMap fun c => list.find? fun x => x.1 == c
        let sorted := part.mergeSort fun a b => decide (a.1.order ≤ b.1.order)
        let r := collResult (key / 2 ^ 80 % 4) (sorted.map fun x => x.2.2.2)
        let s1 := part.foldl (fun st x => st.modEngine x.1 .coll fun k =>
          { k with results := k.results ++ [r], active := k.active.filter fun a => a.id != x.2.1 }) s
        let left := list.filter fun x => !part.contains x
        .next { s1 with colls := if left = [] then s1.colls.drop key else s1.colls.put key left }
  | _ => .next s

end Sys2Proof.Machine
end

