-- ==== Sys2Proof/Machine/Tier.lean ====
section
/-! DEFINITION. The switch tier's allocations (R105, R106, R281 to R285): SALLOC, SFREE, SINFO and their replies. -/

namespace Sys2Proof.Machine

/-- Bytes of a granule (R281). -/
def granule : Nat := 2 ^ 21

/-- Granules of a switch (R282). -/
def granules : Nat := 131072

/-- Granules that live allocations of a space hold on a switch (R282). -/
def State.granulesUsed (s : State) (k : Nat) (space : BitVec 16) : Nat :=
  (s.allocs.filter fun a => s.allocLive a && decide (a.space = space)
    && (a.switch == k || (a.mir && a.switch + 1 == k))).foldl (fun n a => n + a.size / granule) 0

/-- Granules left to a space on a switch (R282). -/
def State.quotaLeft (s : State) (k : Nat) (space : BitVec 16) : Nat :=
  ((s.switch k).quota.get? space.toNat).getD 0 - s.granulesUsed k space

/-- Whether a switch takes allocations of a device: up, and not lost to it (R105, R286). -/
def State.reachable (s : State) (d k : Nat) : Bool := (s.switch k).up && !s.noticed d k && (s.port d k).up

/-- Whether [off, off + size) of a switch begins at a granule and meets no live allocation (R281). -/
def State.tierFree (s : State) (k off size : Nat) : Bool :=
  decide (off % granule = 0) && decide (off + size ≤ granules * granule) && !(s.allocs.any fun a => s.allocLive a
    && (a.switch == k || (a.mir && a.switch + 1 == k)) && decide (off < a.off + a.size) && decide (a.off < off + size))

/-- Offsets at which an allocation may begin: one the fabric manager is free to choose, else the start of the switch and
the ends of the allocations, one of which fits when any does. -/
def State.tierPlace (s : State) (ks : List Nat) (size pick : Nat) : Option Nat :=
  ((pick % granules * granule) :: 0 :: s.allocs.map fun a => a.off + a.size).find? fun off =>
    ks.all fun k => s.tierFree k off size

/-- A pointer into the tier (R73). -/
def tierPointer (k inc off : Nat) : Word := toWord (0xE0 * 2 ^ 48 + k * 2 ^ 47 + inc * 2 ^ 41 + off)

/-- The switches, or the even members of the complete mirror pairs, that a device reaches (R105). -/
def State.eligible (s : State) (d : Nat) (mir : Bool) : List Nat :=
  if mir then
    ((List.range 12).filter fun j =>
      s.reachable d (2 * j) && s.reachable d (2 * j + 1) && s.serves (2 * j) && s.serves (2 * j + 1)).map fun j => 2 * j
  else (List.range 24).filter fun k => s.reachable d k

/-- The members that an allocation on k lies on. -/
def tierMembers (mir : Bool) (k : Nat) : List Nat := if mir then [k, k + 1] else [k]

/-- The fabric manager's answer to a SALLOC of n bytes (R105, Table 6): the pointer and the reason code. -/
def State.allocate (s : State) (d : Nat) (space : BitVec 16) (mir : Bool) (n pick : Nat) : State × Word × Nat :=
  if n = 0 ∨ 2 ^ 36 < n then (s, 0, 3)
  else
    let size := ceilDiv n granule * granule
    match s.eligible d mir with
    | [] => (s, 0, 4)
    | ks =>
      let paid := ks.filter fun k => (tierMembers mir k).all fun m => decide (size / granule ≤ s.quotaLeft m space)
      if paid = [] then (s, 0, 1)
      else
        let fit := paid.filterMap fun k => (s.tierPlace (tierMembers mir k) size (pick / 24)).map fun off => (k, off)
        match fit[pick % fit.length]? with
        | none => (s, 0, 2)
        | some (k, off) =>
          let inc := if mir then s.pairInc (k / 2) else (s.switch k).inc
          let a : Alloc := { switch := k, mir := mir, off := off, size := size, space := space, inc := inc, freed := false }
          ({ s with allocs := a :: s.allocs }, tierPointer k inc off, 0)

/-- SALLOC and SALLOC.mir: out of the rotation until the switch replies (R105); rd = rb is illegal. -/
def salloc (g : Guard) (d a b : Reg) (s : State) : Out :=
  if d = b then illegal s
  else
    guarded g 4 s fun s =>
      let (k, s1) := s.pick (2 ^ 32)
      .next ((s1.park s.tf (.reply (s.reg a) 0)).later .sallocReply (.ctx s.tf k))

/-- SALLOC (R105). -/
def execSalloc (g : Guard) (d a b : Reg) (s : State) : Out := salloc g d a b s
/-- SALLOC.mir (R105). -/
def execSallocMir (g : Guard) (d a b : Reg) (s : State) : Out := salloc g d a b s

/-- SALLOC_REPLY (R105, R282). -/
def execSallocReply (s : State) : Out :=
  match s.ev with
  | .ctx t pick =>
    match (s.ctx t).mode, (s.ctx t).cur with
    | .waiting (.reply ra _), some i =>
      let s := { s with tf := t }
      let answer (mir : Bool) (d b : Reg) : Out :=
        let (s1, p, reason) := s.allocate (s.homeDev t) s.me.space mir ra.toNat pick
        .next (((s1.setReg d p).setReg b (toWord reason)).retire 4)
      match i with
      | .salloc _ d _ b => answer false d b
      | .sallocMir _ d _ b => answer true d b
      | _ => .next s
    | _, _ => .next s
  | _ => .next s

/-- SFREE (R106). -/
def execSfree (g : Guard) (a : Reg) (s : State) : Out :=
  guarded g 4 s fun s => .next ((s.park s.tf (.reply (s.reg a) 0)).later .sfreeReply (.ctx s.tf 0))

/-- Frees the allocation whose base a pointer is; the trap cause otherwise (R106, R280, R285). -/
def State.free (s : State) (t : CtxRef) (va : Word) : Except Nat State :=
  match s.classify t va with
  | .tier k inc off =>
    match s.tierRoute t k off with
    | .stop c => .error c
    | .go _ _ =>
      match s.allocAt k off with
      | none => .error (if inc ≠ s.governing k off then 27 else 28)
      | some a =>
        if inc ≠ s.governing k off then .error 27
        else if s.allocLive a ∧ a.off = off ∧ a.switch = k ∧ a.space = (s.ctx t).space then
          .ok { s with allocs := s.allocs.map fun b => if b = a then { a with freed := true } else b }
        else .error 28
  | .bad 3 => .error 3
  | _ => .error 28

/-- The size of the live allocation that holds a pointer, or 0 (SINFO.size, R106). -/
def State.tierSize (s : State) (t : CtxRef) (va : Word) : Nat :=
  match s.classify t va with
  | .tier k inc off =>
    match s.allocs.find? fun b => s.allocLive b && b.covers k off && b.inc == inc with
    | some b => b.size
    | none => 0
  | _ => 0

/-- What SINFO.health reads (R106, R288): up, the partner of the pair up, and the incarnation. -/
def State.tierHealth (s : State) (d k : Nat) : Nat :=
  let up (j : Nat) : Bool := (s.switch j).up && !s.noticed d j
  let partner := if k % 2 = 0 then k + 1 else k - 1
  let full := up partner && !(s.switch k).filling && !(s.switch partner).filling
  (if up k then 1 else 0) + (if full then 2 else 0) + 4 * (s.switch k).inc

/-- SINFO: out of the rotation until the reply (R264). [log 111] -/
def sinfo (x : Word) (s : State) : Out := .next ((s.park s.tf (.reply x 0)).later .sfreeReply (.ctx s.tf 0))

/-- The forms of SINFO that name a switch: above 23, range-limit (R106). -/
def sinfoSwitch (x : Word) (s : State) : Out := if 23 < x.toNat then trapOut s 11 0 else sinfo x s

/-- SINFO.size (R106). -/
def execSinfoSize (g : Guard) (_d a : Reg) (s : State) : Out := guarded g 4 s fun s => sinfo (s.reg a) s
/-- SINFO.health (R106). -/
def execSinfoHealth (g : Guard) (_d a : Reg) (s : State) : Out := guarded g 4 s fun s => sinfoSwitch (s.reg a) s
/-- SINFO.quota (R106, R282). -/
def execSinfoQuota (g : Guard) (_d a : Reg) (s : State) : Out := guarded g 4 s fun s => sinfoSwitch (s.reg a) s
/-- SINFO.inc (R106, R285). -/
def execSinfoInc (g : Guard) (_d a : Reg) (s : State) : Out := guarded g 4 s fun s => sinfoSwitch (s.reg a) s

/-- The register and the value that the reply of an SINFO brings (R106). -/
def State.sinfoAnswer (s : State) (i : Instr) (x : Word) : Option (Reg × Nat) :=
  match i with
  | .sinfoSize _ d _ => some (d, s.tierSize s.tf x)
  | .sinfoHealth _ d _ => some (d, s.tierHealth (s.homeDev s.tf) x.toNat)
  | .sinfoQuota _ d _ => some (d, s.quotaLeft x.toNat s.me.space)
  | .sinfoInc _ d _ => some (d, (s.switch x.toNat).inc)
  | _ => none

/-- SFREE_REPLY (R106); the reply of an SINFO comes the same way. [log 111] -/
def execSfreeReply (s : State) : Out :=
  match s.ev with
  | .ctx t _ =>
    let s1 : State := { s with tf := t }
    match (s.ctx t).mode, (s.ctx t).cur with
    | .waiting (.reply va _), some (.sfree _ _) =>
      match s1.free t va with
      | .error c => trapOut s1 c va
      | .ok s2 => .next (s2.retire 4)
    | .waiting (.reply x _), some i =>
      match s1.sinfoAnswer i x with
      | some (d, n) => .next ((s1.setReg d (toWord n)).retire 4)
      | none => .next s
    | _, _ => .next s
  | _ => .next s

end Sys2Proof.Machine
end

