-- ==== Sys2Proof/Machine/System.lean ====
section
/-! DEFINITION. System instructions (R109 to R111): ERET, XINV, SNAP, BKPT, TRAP, SYSR and SYSW; the interleave registers
(R307 to R314), SYS.SLOTMAP (R195 to R197); the events of translation (R318, R319), shared units and counters; illegal words
and failed fetches (R24, R65). -/

namespace Sys2Proof.Machine

/-- A privileged form issued by a user context traps as privilege (R109). -/
def whenPrivileged (s : State) (k : State → Out) : Out := if s.me.priv then k s else trapOut s 8 0

/-! ## R109 -/

/-- ERET (R109, R327): one forfeited turn. A guest first returns home (R93). -/
def execEret (g : Guard) (s : State) : Out :=
  guarded g 4 s fun s => whenPrivileged s fun s =>
    if s.me.home ≠ none then goHome s s.me.pc else .next s.returnFromTrap

/-- XINV (R109, R319): first a FENCE at package scope, then the wait for the stations. -/
def execXinv (g : Guard) (a b : Reg) (s : State) : Out :=
  guarded g 4 s fun s => whenPrivileged s fun s =>
    let x := s.reg a
    if wbits x 18 46 ≠ 0 ∨ wbits x 16 2 = 3 then trapOut s 7 0
    else
      whenDrained s true fun s =>
        .next (((s.acquire s.tf.core 4).park s.tf (.reply x (s.reg b))).later .xinvComplete (.ctx s.tf 0))

/-- Whether an XINV of ra = x names a page of a space. -/
def xinvNames (x rb : Word) (space : BitVec 16) (base size : Nat) : Bool :=
  match wbits x 16 2 with
  | 0 => wbits x 0 16 == space.toNat && decide (base ≤ rb.toNat) && decide (rb.toNat < base + size)
  | 1 => wbits x 0 16 == space.toNat
  | _ => true

/-- Whether a context has a request of device memory outstanding that an XINV of a device waits for: a queued store, a
load, or an atomic, translated under a named space and address (R319). -/
def State.xinvWaits (s : State) (d : Nat) (x rb : Word) (t : CtxRef) : Bool :=
  let c := s.ctx t
  let hits (e : Nat) (va : Word) (space : BitVec 16) : Bool :=
    e == d && xinvNames x rb space (va.toNat / 2 ^ 30 * 2 ^ 30) (2 ^ 30)
  (c.stores.any fun e => match e.target with
    | .dram k _ va => hits k va e.space
    | _ => false)
  || (match c.mode with
    | .waiting (.load e _ va _) => hits e va c.space
    | .waiting (.atomic e _ va _) => hits e va c.space
    | _ => false)

/-- XINV_COMPLETE (R319): the stations have dropped the entries named, and every request translated under them has been
performed. -/
def execXinvComplete (s : State) : Out :=
  match s.ev with
  | .ctx t _ =>
    match (s.ctx t).mode, (s.ctx t).cur with
    | .waiting (.reply x rb), some (.xinv _ _ _) =>
      let d := s.memDev t
      let s1 := s.modDev d fun v => { v with tlb := v.tlb.filter fun e => !xinvNames x rb e.space e.base e.size }
      if s1.ctxs.any fun e => s1.xinvWaits d x rb (CtxRef.ofCode e.1) then
        .next (s1.dueAt (s1.wcc + 1) .xinvComplete (.ctx t 0))
      else .next (({ s1 with tf := t } : State).retire 4)
    | _, _ => .next s
  | _ => .next s

/-- TRANSLATION_WALK (R318): the station caches the leaf that the walk finds, in place of one of its 4,096 entries. A walk that
meets a line that moves waits for X (R313). -/
def execTranslationWalk (s : State) : Out :=
  match s.ev with
  | .walk d space va pick =>
    let sp := BitVec.ofNat 16 space
    if s.walkMoves d sp va then .next (s.dueAt (s.wcc + 1) .translationWalk (.walk d space va pick)) else
    match (s.dev d).cached sp va, s.walk d sp va with
    | none, some e =>
      let full := decide (4096 ≤ ((s.dev d).tlb.filter fun f => f.station == e.station).length)
      let victim := ((s.dev d).tlb.filter fun f => f.station == e.station)[pick % 4096]?
      .next (s.modDev d fun v =>
        { v with tlb := (if full then v.tlb.filter fun f => some f != victim else v.tlb) ++ [e] })
    | _, _ => .next s
  | _ => .next s

/-- SNAP (R109, R340): the trigger names Z = the issue cycle + 64; the capture takes the state as of the end of Z. -/
def execSnap (g : Guard) (s : State) : Out :=
  guarded g 4 s fun s => whenPrivileged s fun s =>
    .next ((s.retire 4).dueAt (s.wcc + 64) .snapshotCapture (.devNum (s.memDev s.tf) (s.wcc + 64)))

/-- BKPT (R109). -/
def execBkpt (g : Guard) (s : State) : Out := guarded g 4 s fun s => trapOut s 9 0

/-- TRAP n (R108, R109): the saved PC is the next word. -/
def execTrap (g : Guard) (n : BitVec 8) (s : State) : Out :=
  guarded g 4 s fun s => .next (s.trapAt (s.me.pc + 4) ⟨10, n.toNat, 0⟩)

/-! ## Reading a system register (R21, R110, R111) -/

/-- A boundary register's value: bits [18:9]. -/
def bndWord (b : BitVec 10) : Word := toWord (b.toNat * 512)

/-- The value of system register r as the acting context reads it; none for an unassigned number (Table 3 of R21). -/
def State.sysRead (s : State) (r : Nat) : Option Word :=
  let c := s.core s.tf.core
  let me := s.me
  let d := s.dev (s.memDev s.tf)
  if r = 0 then some (zx me.wp)
  else if r = 1 then some me.tvec
  else if r = 2 then some (toWord ((if me.priv then 2 ^ 63 else 0) + (if me.guest then 16 else 0) + s.tf.n))
  else if r = 3 then some s.tf.core.sysCore
  else if r = 4 then some (zx me.space)
  else if r = 5 then some (zx me.rect)
  else if r = 8 then some (bndWord c.bndW)
  else if r = 9 then some (bndWord c.bndS)
  else if r = 10 then some (bndWord c.bndL)
  else if 0x10 ≤ r ∧ r ≤ 0x13 then c.wins[r - 0x10]?
  else if 0x20 ≤ r ∧ r ≤ 0x26 then some (d.mask (r - 0x20))
  else if r = 0x30 then some d.slotmap
  else if 0x40 ≤ r ∧ r < 0x60 then some (if r % 2 = 0 then d.domBase ((r - 0x40) / 2) else d.domLimit ((r - 0x40) / 2))
  else none

/-- SYSR (R110): an unassigned number is illegal, under any guard (R23, R24). -/
def execSysr (g : Guard) (d : Reg) (r : BitVec 10) (s : State) : Out :=
  match s.sysRead r.toNat with
  | none => illegal s
  | some _ => guarded g 4 s fun s => .next ((s.setReg d ((s.sysRead r.toNat).getD 0)).retire 4)

/-! ## Writing a register of the context or the core (R21, R110, R111) -/

/-- A SYSW that would put a field outside its range (R111). -/
def rangeLimit (s : State) : Out := trapOut s 11 0

/-- SYSW of a register without a row of its own: SYS.TVEC, SYS.RECT; the read-only and the unassigned ones are illegal
(R21, R110). -/
def execSysw (g : Guard) (a : Reg) (r : BitVec 10) (s : State) : Out :=
  if r = 5 then
    guarded g 4 s fun s =>
      let v := s.reg a
      .next ((s.modCtx s.tf fun c => { c with rect := v.truncate 22 }).retire 4)
  else if r = 1 then
    guarded g 4 s fun s => whenPrivileged s fun s =>
      let v := toWord (wbits (s.reg a) 2 54 * 4)
      if !isDeviceMemory v then rangeLimit s
      else .next ((s.modCtx s.tf fun c => { c with tvec := v }).retire 4)
  else illegal s

/-- SYSW SYS.WP (R110, R111): a multiple of 8 with WP + 160 ≤ BND.W. -/
def execSyswWp (g : Guard) (a : Reg) (s : State) : Out :=
  guarded g 4 s fun s => whenPrivileged s fun s =>
    let v := wbits (s.reg a) 0 18
    if v % 8 ≠ 0 ∨ (s.core s.tf.core).bndW.toNat * 512 < v + 160 then rangeLimit s
    else .next (((s.flushPool s.tf).modCtx s.tf fun c => { c with wp := BitVec.ofNat 18 v }).retire 4)

/-- SYSW SYS.SPACE (R111, R320): L1 is invalidated by generation. -/
def execSyswSpace (g : Guard) (a : Reg) (s : State) : Out :=
  guarded g 4 s fun s => whenPrivileged s fun s =>
    let v := s.reg a
    .next (((s.modCtx s.tf fun c => { c with space := v.truncate 16 }).l1Clear s.tf.core).retire 4)

/-- Whether boundaries keep R111: BND.W + 512 ≤ BND.S ≤ BND.L ≤ 256 KiB, and every live context's workspace below
BND.W. -/
def State.boundsOk (s : State) (c : CoreRef) (w b l : Nat) : Bool :=
  decide (w + 1 ≤ b) && decide (b ≤ l) && decide (l ≤ 512) && (List.range 16).all fun n =>
    decide ((s.ctx ⟨c, n⟩).mode = .free) || decide ((s.ctx ⟨c, n⟩).wp.toNat + 160 ≤ w * 512)

/-- A write of a boundary register (R111): L1 is invalidated, and banks beyond BND.L lose their contents. -/
def writeBound (g : Guard) (a : Reg) (s : State) (f : Core → BitVec 10 → Core) : Out :=
  guarded g 4 s fun s => whenPrivileged s fun s =>
    let c := s.tf.core
    let v := f (s.core c) (BitVec.ofNat 10 (wbits (s.reg a) 9 10))
    if s.boundsOk c v.bndW.toNat v.bndS.toNat v.bndL.toNat then
      let l := v.bndL.toNat * 512
      .next (({ (s.setCore c { v with l1 := [] }) with pool := s.pool.clear (c.poolBase + l) (2 ^ 18 - l) } : State).retire 4)
    else rangeLimit s

/-- SYSW SYS.BND.W (R111). -/
def execSyswBndW (g : Guard) (a : Reg) (s : State) : Out := writeBound g a s fun c v => { c with bndW := v }
/-- SYSW SYS.BND.S (R111). -/
def execSyswBndS (g : Guard) (a : Reg) (s : State) : Out := writeBound g a s fun c v => { c with bndS := v }
/-- SYSW SYS.BND.L (R111). -/
def execSyswBndL (g : Guard) (a : Reg) (s : State) : Out := writeBound g a s fun c v => { c with bndL := v }

/-- Whether a window value is refused for a core of device d (R323). -/
def windowBad (d : Nat) (v : Word) : Bool :=
  let n := wbits v 50 4
  let base := wbits v 24 26
  wbits v 63 1 == 1 && (decide (191 < wbits v 54 8) || wbits v 54 8 == d || decide (9 < n) || base % 2 ^ n != 0
    || decide (deviceEnd < (base + 2 ^ n) * 2 ^ 30))

/-- Window register i of a core. -/
def Core.setWin (c : Core) (i : Nat) (v : Word) : Core :=
  match i with
  | 0 => { c with win0 := v }
  | 1 => { c with win1 := v }
  | 2 => { c with win2 := v }
  | _ => { c with win3 := v }

/-- SYSW SYS.WIN0 to SYS.WIN3 (R323): checked when EN = 1. -/
def execSyswWin (g : Guard) (a : Reg) (w : BitVec 2) (s : State) : Out :=
  guarded g 4 s fun s => whenPrivileged s fun s =>
    let v := s.reg a
    if windowBad (s.memDev s.tf) v then rangeLimit s
    else .next ((s.modCore s.tf.core fun c => c.setWin w.toNat (v >>> 24 <<< 24)).retire 4)

/-! ## The interleave registers (R307 to R314) -/

/-- A change of an interleave register (R310): from its issue on no maintenance walk starts (R314); the context's queues drain,
and P comes within 200 cycles. One change of a package at a time. -/
def interleave (r : Nat) (v : Word) (s : State) : Out :=
  let d := s.memDev s.tf
  let go (s : State) : Out := whenDrained s false fun s =>
    .next ((s.park s.tf (.reply (toWord r) v)).within 200 .interleavePending (.dev d))
  match (s.dev d).change with
  | none => go (s.modDev d fun x =>
      { x with change := some { issuer := s.tf, reg := r, value := v, pending := false, p := 0 } })
  | some c => if c.issuer = s.tf then go s else .next (s.pause .again)

/-- SYSW SYS.HMASK0 to SYS.HMASK6 (R307, R310). -/
def execSyswHmask (g : Guard) (a : Reg) (h : BitVec 3) (s : State) : Out :=
  guarded g 4 s fun s => whenPrivileged s fun s =>
    interleave (0x20 + h.toNat) (toWord (wbits (s.reg a) 7 32 * 2 ^ 7)) s

/-- SYSW SYS.DOMTAB.Bk (R307, R308): FIRST must be a multiple of 2^LOGN. -/
def execSyswDomtabB (g : Guard) (a : Reg) (k : BitVec 4) (s : State) : Out :=
  guarded g 4 s fun s => whenPrivileged s fun s =>
    let v := s.reg a
    if wbits v 49 7 % 2 ^ wbits v 56 3 ≠ 0 then rangeLimit s
    else interleave (0x40 + 2 * k.toNat) (v &&& 0x87FE007FFFE00000) s

/-- SYSW SYS.DOMTAB.Lk (R307, R310). -/
def execSyswDomtabL (g : Guard) (a : Reg) (k : BitVec 4) (s : State) : Out :=
  guarded g 4 s fun s => whenPrivileged s fun s =>
    interleave (0x41 + 2 * k.toNat) (s.reg a &&& 0x0000007FFFE00000) s

/-- Whether a dirty line moves under the change of a device. -/
def State.dirtyMoves (s : State) (d : Nat) : Bool :=
  s.dirty.any fun e => e.1 / 2 ^ 32 == d && s.moving d (e.1 % 2 ^ 32 * 128)

/-- INTERLEAVE_PENDING (R310): cycle P, once no maintenance walk is in progress; X follows at P + 1,024 + 64, or later when
dirty lines have to be written back. -/
def execInterleavePending (s : State) : Out :=
  match s.ev with
  | .dev d =>
    match (s.dev d).change with
    | none => .next s
    | some c =>
      if (s.dev d).walks ≠ [] then .next (s.dueAt (s.wcc + 1) .interleavePending (.dev d))
      else if c.pending then .next s
      else
        let s1 := s.modDev d fun v => { v with change := some { c with pending := true, p := s.wcc } }
        let more := if s1.dirtyMoves d then Config.choice s1.fresh else 0
        .next (({ s1 with fresh := s1.fresh + 1 } : State).dueAt (s1.wcc + 1088 + more) .interleaveAdopt (.dev d))
  | _ => .next s

/-- The dirty moving lines are written back to HBM and dropped (R310). -/
def State.scanMoving (s : State) (d : Nat) : State :=
  { s with dirty := s.dirty.filter fun e => !(e.1 / 2 ^ 32 == d && s.moving d (e.1 % 2 ^ 32 * 128)) }

/-- INTERLEAVE_ADOPT (R310, R311): cycle X. The new value stands, the held requests are answered MOVED, and the SYSW's
context is ready. -/
def execInterleaveAdopt (s : State) : Out :=
  match s.ev with
  | .dev d =>
    match (s.dev d).change with
    | none => .next s
    | some c =>
      if !c.pending then .next s
      else
        let held := (s.dev d).moved
        let s1 := (s.scanMoving d).modDev d fun v => { (v.withReg c.reg c.value) with change := none, moved := [] }
        let s2 := held.foldl (fun st t => st.later .movedReplay (.ctx t 0)) (s1.enterWaiting d)
        match (s2.ctx c.issuer).mode with
        | .waiting (.reply _ _) => .next (({ s2 with tf := c.issuer } : State).retire 4)
        | _ => .next s2
  | _ => .next s

/-! ## SYS.SLOTMAP (R195 to R197) -/

/-- Share i of a SLOTMAP value. -/
def share (v : Word) (i : Nat) : Nat := wbits v (4 * i) 4

/-- The smallest share over the eight stacks (R197). -/
def leastShare (v : Word) : Nat := (List.range 8).foldl (fun m i => Nat.min m (share v i)) 15

/-- L_A and L_W of Table 3 of R197. -/
def latencies (t : Nat) : Nat × Nat :=
  (([1300, 1120, 1000, 920, 850, 800, 760, 730, 700, 680, 660] : List Nat)[t - 4]?.getD 1300,
   ([1200, 1020, 900, 820, 750, 700, 660, 630, 600, 580, 560] : List Nat)[t - 4]?.getD 1200)

/-- The next turn of the wheels (R195). -/
def nextTurn (wcc : Nat) : Nat := (wcc / 64 + 1) * 64

/-- SYSW SYS.SLOTMAP (R196): every share from 4 to 14. It completes when every instance holds the value (R110); one write of a
package waits at a time. -/
def execSyswSlotmap (g : Guard) (a : Reg) (s : State) : Out :=
  guarded g 4 s fun s => whenPrivileged s fun s =>
    let v := toWord (wbits (s.reg a) 0 32)
    let d := s.memDev s.tf
    if !((List.range 8).all fun i => decide (4 ≤ share v i) && decide (share v i ≤ 14)) then rangeLimit s
    else if (s.dev d).slotWait.isSome then .next (s.pause .again)
    else
      let lowers := (List.range 8).any fun i => decide (share v i < share (s.dev d).slotmap i)
      let s1 := s.modDev d fun x =>
        { x with slotWait := some { issuer := s.tf, reg := 0x30, value := v, pending := lowers, p := 0 } }
      .next ((s1.park s.tf (.reply 0x30 v)).dueAt (nextTurn s.wcc) .slotmapTakeEffect (.dev d))

/-- SLOTMAP_TAKE_EFFECT (R196): at a turn; a lowering write waits until no job runs that was accepted with a smaller
L_A. -/
def execSlotmapTakeEffect (s : State) : Out :=
  match s.ev with
  | .dev d =>
    match (s.dev d).slotWait with
    | none => .next s
    | some c =>
      let la := (latencies (leastShare c.value)).1
      let blocked := s.jobs.any fun e => e.2.part.dev == d && e.2.state == .running && decide (e.2.latA < la)
      if (c.pending && blocked) || s.wcc % 64 != 0 then .next (s.dueAt (nextTurn s.wcc) .slotmapTakeEffect (.dev d))
      else
        let s1 := s.modDev d fun v => { v with slotmap := c.value, slotWait := none }
        match (s1.ctx c.issuer).mode with
        | .waiting (.reply _ _) => .next (({ s1 with tf := c.issuer } : State).retire 4)
        | _ => .next s1
  | _ => .next s

/-! ## Counters, shared units, illegal words and failed fetches -/

/-- Whether the counter a context waits for has reached its target (R66). -/
def State.counterReached (s : State) (t : CtxRef) : Bool :=
  match (s.ctx t).mode with
  | .waiting (.counter none v) => decide (v.toNat ≤ s.wcc)
  | .waiting (.counter (some k) v) =>
    let p := s.part ⟨s.memDev t, k⟩
    p.formed && decide (v.toNat ≤ p.pcc)
  | _ => false

/-- WAITC_WAKE (R66). -/
def execWaitcWake (s : State) : Out :=
  match s.ev with
  | .ctx t _ => if s.counterReached t then .next (({ s with tf := t } : State).retire 4) else .next s
  | _ => .next s

/-- A shared unit takes a waiting context's instruction: its turns are forfeited from now (R38, R226). -/
def State.grant (s : State) (t : CtxRef) : State :=
  match (s.ctx t).mode with
  | .waiting (.unit _ turns norm) => ({ s with tf := t } : State).served turns norm
  | _ => s

/-- SHARED_UNIT_GRANT (R38, R55, R226): in the order in which the contexts asked. A SPAWNU update at the head takes the
normaliser by itself (REMOTE_UPDATE_APPLY). -/
def execSharedUnitGrant (s : State) : Out :=
  match s.ev with
  | .unit c .divider =>
    match (s.core c).divQueue with
    | [] => .next s
    | (n, cycles) :: rest =>
      if s.wcc < (s.core c).divBusy then .next s
      else .next ((s.modCore c fun v => { v with divQueue := rest, divBusy := s.wcc + cycles }).grant ⟨c, n⟩)
  | .unit c .normaliser =>
    match (s.core c).normQueue with
    | [] => .next s
    | n :: rest =>
      if s.wcc < (s.core c).normBusy ∨ 16 ≤ n then .next s
      else .next ((s.modCore c fun v => { v with normQueue := rest, normBusy := s.wcc + 4 }).grant ⟨c, n⟩)
  | _ => .next s

/-- ILLEGAL_INSTRUCTION (R24): the acting context's word is no instruction. -/
def execIllegalInstruction (s : State) : Out := illegal s

/-- FETCH_FAULT (R65, R317): the acting context's fetch failed; the trap, with the cause of the failed translation, is at the
target. -/
def execFetchFault (s : State) : Out :=
  trapOut s (match s.codeBytes s.tf with
    | .error c => c
    | .ok _ => causeAddress) s.me.pc

end Sys2Proof.Machine
end

