-- ==== Sys2Proof/Machine/Dotm.lean ====
section
/-! DEFINITION. DOTM (R107, R272, R313): the matrix-vector product of an edge core. -/

namespace Sys2Proof.Machine

/-- The format code and the element size of DOTM's type: 0 E4M3, 1 E5M2, 2 BF16. -/
def dotmFormat (t : BitVec 2) : Nat × Nat :=
  match t.toNat with
  | 0 => (4, 1)
  | 1 => (5, 1)
  | _ => (3, 2)

/-- The byte offset in the edge core's pool that ra names: a plain offset, or that of a self alias. [log 24] -/
def dotmOffset (va : Word) : Option Nat :=
  if wbits va 48 16 = 0 ∨ wbits va 48 16 = 0xFE then
    (if wbits va 0 48 + 32 ≤ 2 ^ 18 then some (wbits va 0 48) else none)
  else none

/-- DOTM's command (R107): row 0, stride, row count, vector and results. -/
structure DotmCommand where
  row : Word
  stride : Nat
  n : Nat
  vec : Nat
  res : Nat
  deriving DecidableEq, Repr

/-- The words of the command at an offset of a pool. -/
def State.dotmWords (s : State) (c : CoreRef) (off : Nat) : List Word :=
  (List.range 4).map fun k => toWord (s.pool.num (c.poolBase + off + 8 * k) 8)

/-- A command by its words. -/
def dotmCommand (ws : List Word) : DotmCommand :=
  let w (k : Nat) : Word := (ws[k]?).getD 0
  { row := w 0, stride := wbits (w 1) 32 32, n := wbits (w 1) 0 32, vec := (w 2).toNat, res := (w 3).toNat }

/-- DOTM on an edge core; on another core, and with an unassigned type, it is illegal (R107, R281). As MARK first, so that its
own stores are performed before its command is read (R272). An offset of 256 KiB or more is unassigned, in ra and in the command
alike: address-fault (R8, R9). The spec names no cause for a stride or row count out of range: range-limit is the model's choice.
[log 24] -/
def execDotm (g : Guard) (_d a : Reg) (t : BitVec 2) (s : State) : Out :=
  match s.tf.core with
  | .edge _ _ =>
    if t = 3 then illegal s
    else
      guarded g 4 s fun s =>
        let va := s.reg a
        match dotmOffset va with
        | none => trapOut s causeAddress va
        | some off =>
          if off % 8 ≠ 0 then trapOut s 2 va
          else
            whenDrained s.markStores false fun s =>
              let ws := s.dotmWords s.tf.core off
              let m := dotmCommand ws
              if !isDeviceMemory m.row then trapOut s causeAddress m.row
              else if m.stride % 128 ≠ 0 ∨ m.n = 0 ∨ 65536 < m.n then trapOut s 11 0
              else if 2 ^ 18 < m.vec + 128 * (dotmFormat t).2 ∨ 2 ^ 18 < m.res + 4 * m.n then trapOut s causeAddress va
              else .next ((s.park s.tf (.rows ws 0 [])).later .dotmComplete (.ctx s.tf 0))
  | _ => illegal s

/-- The exact dot product of two lists of values, rounded once to binary32 by nearest-even (R107). -/
def dotValue : List FVal → List FVal → FVal
  | x :: xs, y :: ys =>
    match xs, ys with
    | [], _ => x.mul y
    | _, [] => x.mul y
    | _, _ => (x.mul y).add .rne (dotValue xs ys)
  | _, _ => .fin false 0 0

/-- The addresses at which the parts of a row that lie in one line each begin. -/
def rowParts (va len : Nat) : List Nat :=
  (List.range ((va + len - 1) / 128 - va / 128 + 1)).map fun k => Nat.max va ((va / 128 + k) * 128)

/-- What stops a row at an address for the core beside slice e: a line that does not translate, or dotm-range where a line of it
is not homed at the slice or moves (R107, R313). -/
def State.rowCause (s : State) (dev e va len : Nat) : Option Nat :=
  (rowParts va len).findSome? fun a =>
    match s.translate dev s.me.space a .read 3 false with
    | .error c => some c
    | .ok pa => if (s.dev dev).home pa != e || s.moving dev pa then some 29 else none

/-- The result of a row: the exact sum of its products with the vector, rounded once (R107). -/
def State.rowResult (s : State) (c : CoreRef) (m : DotmCommand) (fmt size : Nat) (row : List Byte) : Nat :=
  let vec := s.pool.getBytes (c.poolBase + m.vec) (128 * size)
  let values (bs : List Byte) : List FVal := (List.range 128).map fun j => elementValue fmt (packedElement fmt bs j)
  f32.round .rne (dotValue (values vec) (values row))

/-- The row of a DOTM goes on: a piece of it is read, whole words, by default all that is left (R256, R272). -/
def State.readRow (s : State) (dev va len : Nat) (got : List Byte) : List Byte × State :=
  let at_ := va + got.length
  let words := (va + len + 7) / 8 - at_ / 8
  let (j, s1) := s.pick words
  let stop := Nat.min (va + len) ((at_ / 8 + words - j) * 8)
  (got ++ (s1.virtGet dev s.me.space 3 at_ (stop - at_)).getD [], s1)

/-- DOTM_COMPLETE (R107, R272): the rows are read in order, one in 1 or 2 cycles; rd := n after the last, or a trap at the first
that is not on the core's slice. -/
def execDotmComplete (s : State) : Out :=
  match s.ev with
  | .ctx t _ =>
    match (s.ctx t).mode, (s.ctx t).cur, t.core with
    | .waiting (.rows ws i got), some (.dotm _ d _ ty), .edge dev e =>
      let s := { s with tf := t }
      let (fmt, size) := dotmFormat ty
      let m := dotmCommand ws
      let va := m.row + BitVec.ofNat 64 (i * m.stride)
      let len := 128 * size
      if (rowParts va.toNat len).any fun a => s.walkMoves dev s.me.space a then .next (s.dueAt (s.wcc + 1) .dotmComplete (.ctx t 0)) else
      match (s.rowCause dev e va.toNat len).filter fun c => got == [] || c != 29 with
      | some c => trapOut s c va
      | none =>
        let (row, s1) := s.readRow dev va.toNat len got
        let wait (s : State) (i : Nat) (got : List Byte) : Out :=
          .next ((s.modCtx t fun c => { c with mode := .waiting (.rows ws i got) }).dueAt (s.wcc + size) .dotmComplete (.ctx t 0))
        if row.length < len then wait s1 i row
        else
          let s2 : State :=
            { s1 with pool := s1.pool.setNum (t.core.poolBase + m.res + 4 * i) 4 (s1.rowResult t.core m fmt size row) }
          if i + 1 < m.n then wait s2 (i + 1) [] else .next ((s2.setReg d (toWord m.n)).retire 4)
    | _, _, _ => .next s
  | _ => .next s

end Sys2Proof.Machine
end

