-- ==== Sys2Proof/Machine/Timed.lean ====
section
/-! DEFINITION. The timed plane's shared operations: buffers and slots (R150), stamps and clocks (R115, R186, R203), stream faults
(R119, R330), holds (R191, R192), bank owners and claims (R335, R336), stacks (R113), the issue of a launch word (R114 to
R116) and the operations it starts (R198 to R200). -/

namespace Sys2Proof.Machine

/-! ## Buffers (R150) and the oasis store buffer (R270) -/

/-- Bytes of a buffer. -/
def bufSize : Buf → Nat
  | .w => 0x180000
  | .a => 0x180000
  | .c => 0x400000

/-- Where a pipe's W or A begins in `wbuf` or `abuf`. -/
def bufBase (p : PipeRef) : Nat := p.code * 2 ^ 21

/-- The byte of A that the oasis store buffer holds, if it does (R270). -/
def bufferedByte (l : List BufferLine) (off : Nat) : Option Byte :=
  match l.find? fun b => b.line == off / 64 with
  | some b => (b.bytes.find? fun x => x.1 == off % 64).map fun x => x.2
  | none => none

/-- Reads n bytes of A, those of the store buffer first. -/
def State.aGet (s : State) (p : PipeRef) (off n : Nat) : List Byte :=
  match (s.pipe p).sbuf with
  | [] => s.abuf.getBytes (bufBase p + off) n
  | l => (List.range n).map fun i => (bufferedByte l (off + i)).getD (s.abuf.get (bufBase p + off + i))

/-- Writes bytes of A; an engine's write supersedes what the store buffer holds for them. -/
def State.aSet (s : State) (p : PipeRef) (off : Nat) (bs : List Byte) : State :=
  let s1 : State := { s with abuf := s.abuf.setBytes (bufBase p + off) bs }
  if (s1.pipe p).sbuf = [] then s1
  else
    s1.modPipe p fun v => { v with sbuf := v.sbuf.map fun b =>
      { b with bytes := b.bytes.filter fun x =>
          !(decide (off ≤ b.line * 64 + x.1) && decide (b.line * 64 + x.1 < off + bs.length)) } }

/-- Reads n bytes of W. -/
def State.wGet (s : State) (p : PipeRef) (off n : Nat) : List Byte := s.wbuf.getBytes (bufBase p + off) n

/-- Writes bytes of W. -/
def State.wSet (s : State) (p : PipeRef) (off : Nat) (bs : List Byte) : State :=
  { s with wbuf := s.wbuf.setBytes (bufBase p + off) bs }

/-- The slot at 32-byte unit n of C. -/
def State.slotAt (s : State) (p : PipeRef) (n : Nat) : Slot := (s.slots.get? (p.code * 2 ^ 17 + n)).getD Slot.zero

/-- Replaces a slot. -/
def State.setSlot (s : State) (p : PipeRef) (n : Nat) (v : Slot) : State :=
  { s with slots := s.slots.put (p.code * 2 ^ 17 + n) v }

/-- Raw bytes of C (Table 4 of R218). -/
def State.cGet (s : State) (p : PipeRef) (off n : Nat) : List Byte :=
  (List.range n).map fun i => BitVec.ofNat 8 ((s.slotAt p ((off + i) / 32)).raw / 256 ^ ((off + i) % 32))

/-- Raw bytes of a buffer. -/
def State.bufGet (s : State) (p : PipeRef) (b : Buf) (off n : Nat) : List Byte :=
  match b with
  | .w => s.wGet p off n
  | .a => s.aGet p off n
  | .c => s.cGet p off n

/-- Writes the slots of C that raw bytes hold, from a multiple of 32. -/
def State.cSet (s : State) (p : PipeRef) (off : Nat) (bs : List Byte) : State :=
  (List.range (bs.length / 32)).foldl
    (fun st i => st.setSlot p (off / 32 + i) (.ofRaw (leNat ((bs.drop (32 * i)).take 32)))) s

/-! ## Jobs, clocks and stamps -/

/-- The stall horizon of a partition (R183). -/
def State.horizon (s : State) (k : PartRef) : Nat := if (s.part k).group.isSome then 512 else 24

/-- The plane clock that a job's words on a pipe issue by: the PCC, and S + Q in compatibility mode (R203). -/
def State.clock (s : State) (v : Job) (p : PipeRef) : Nat :=
  let pcc := (s.part v.part).pcc
  if v.compat && decide (v.start ≤ pcc) then v.start + (s.pipe p).slip else pcc

/-- Job-relative number of a pipe (R34). -/
def Job.rel (v : Job) (p : Nat) : Nat := (v.pipes.takeWhile fun q => q != p).length

/-- The pipes of a job. -/
def Job.refs (v : Job) : List PipeRef := v.pipes.map fun p => ⟨v.part.dev, p⟩

/-- The stream of the acting word. -/
def State.st (s : State) : Stream := s.stream s.sf

/-- Changes the acting stream. -/
def State.modSt (s : State) (f : Stream → Stream) : State := s.modStream s.sf f

/-- The actual stamp that NEXT gives a stream's next launch (R186). -/
def actualStamp (v : Job) (t : Stream) : Int := (v.start : Int) + t.next + t.bias

/-- The actual stamp of a stream's last launch. -/
def lastActual (v : Job) (t : Stream) : Int := (v.start : Int) + t.last + t.bias

/-! ## Faults (R119, R330) -/

/-- Which of two faults of one cycle is recorded: the lowest pipe, then the first engine (R330). -/
def firstFault (a b : StreamFault) : StreamFault :=
  if b.pipe * 8 + b.stream < a.pipe * 8 + a.stream then b else a

/-- Raises a stream fault of a job, or of an operation in flight of a suspended one: it freezes at the end of the cycle
(R119, R330). -/
def State.raise (s : State) (j pipe stream code detail : Nat) : State :=
  s.modJob j fun v =>
    let f : StreamFault :=
      { code := code, detail := detail, pipe := pipe, stream := stream, pcc := (s.part v.part).pcc }
    if v.state = .running ∨ v.state = .suspended then
      { v with fault := some (match v.fault with
          | none => f
          | some old => firstFault old f) }
    else v

/-- Raises a fault of an engine of a pipe of the job; its stream, if the job still runs there, goes no further. -/
def State.raiseAt (s : State) (j : Nat) (v : Job) (x : StreamRef) (code detail : Nat) : State :=
  let s1 := s.raise j (v.rel x.pipe.p) x.eng.idx code detail
  if (s.pipe x.pipe).job = some j then s1.modStream x fun t => { t with dec := .idle } else s1

/-- Runs a stream word of the job on the acting stream's pipe. -/
def onJob (s : State) (k : Nat → Job → State → Out) : Out :=
  match (s.pipe s.sf.pipe).job with
  | none => .next s
  | some j =>
    match s.jobs.get? j with
    | none => .next s
    | some v => k j v s

/-! ## Holds (R191, R192) -/

/-- Whether a job stands suspended. -/
def State.jobSuspended (s : State) (j : Nat) : Bool := ((s.jobs.get? j).map fun v => v.state == .suspended).getD false

/-- Adds a hold declaration to a partition; those whose hold stamps the PCC has passed hold no more, but for those that a
suspended job carries (R334). -/
def State.declare (s : State) (k : PartRef) (job d : Nat) (c : HoldCause) : State :=
  s.modPart k fun v =>
    { v with holds := (v.holds.filter fun h => decide (v.pcc ≤ h.f) || s.jobSuspended h.job) ++
      [{ job := job, d := d, f := d + s.horizon k, release := none, cause := c }] }

/-- The releasing event of the declarations of a cause occurs now. -/
def State.releaseHolds (s : State) (p : Hold → Bool) : State :=
  { s with parts := s.parts.map fun e =>
      (e.1, { e.2 with holds := e.2.holds.map fun h =>
          if h.release.isNone && p h then { h with release := some s.wcc } else h }) }

/-- The partitions whose declarations hold a partition: its own, and those aligned with it (R183, R192). -/
def State.alignedWith (s : State) (k : PartRef) : List PartRef :=
  match (s.part k).group with
  | none => [k]
  | some g => ((s.groups.get? g).getD []) ++ [k]

/-- Whether a partition's current wall cycle is held (R192). The declarations of a suspended job are withdrawn (R334). -/
def State.holdsNow (s : State) (k : PartRef) : Bool :=
  let pcc := (s.part k).pcc
  let h := s.horizon k
  (s.alignedWith k).any fun m => (s.part m).holds.any fun x =>
    x.f == pcc && !s.jobSuspended x.job && (match x.release with
      | none => true
      | some r => decide (s.wcc < r + h))

/-! ## Banks (R150, R335, R336) -/

/-- Bytes of a bank. -/
def bankBytes : Buf → Nat
  | .w => 0x20000
  | .a => 0xC000
  | .c => 0x40000

/-- A bank's number among a pipe's owner tags. -/
def bankCode (b : Buf) (n : Nat) : Nat :=
  match b with
  | .w => n
  | .a => 16 + n
  | .c => 64 + n

/-- The bank of a byte offset (R150). -/
def bankOf (b : Buf) (off : Nat) : Nat :=
  match b with
  | .w => off / 2 ^ 17
  | .a => off / 64 % 32
  | .c => off / 1024 % 16

/-- The banks that [lo, lo + n) meets, in ascending number. -/
def banksOf (b : Buf) (lo n : Nat) : List Nat :=
  if n = 0 then []
  else
    let (unit, count) : Nat × Nat := match b with
      | .w => (2 ^ 17, 12)
      | .a => (64, 32)
      | .c => (1024, 16)
    let first := lo / unit
    let last := (lo + n - 1) / unit
    (List.range count).filter fun k => (List.range (Nat.min count (last - first + 1))).any fun i => (first + i) % count == k

/-- The owner tag of a bank. -/
def State.owner (s : State) (b : BankRef) : Owner :=
  ((s.pipe b.pipe).owners.get? (bankCode b.buf b.n)).getD Owner.reset

/-- Changes the owner tag of a bank. -/
def State.setOwner (s : State) (b : BankRef) (o : Owner) : State :=
  s.modPipe b.pipe fun v => { v with owners := v.owners.put (bankCode b.buf b.n) o }

/-- The offsets at which a bank of A or C repeats, and its contiguous bytes in W: the offset of its byte k. -/
def bankOffset (b : Buf) (n k : Nat) : Nat :=
  match b with
  | .w => n * 2 ^ 17 + k
  | .a => (k / 64 * 32 + n) * 64 + k % 64
  | .c => (k / 1024 * 16 + n) * 1024 + k % 1024

/-- Bytes that a bank's claim has moved, per wall cycle, by its kind (R335, R336). -/
def BankClaim.work (c : BankClaim) : Nat :=
  match c.kind with
  | .clear => ceilDiv (bankBytes c.bank.buf) 512
  | .writeOut | .fill => ceilDiv (bankBytes c.bank.buf) 256
  | .own | .free | .behind => 0

/-- The wall cycle in which a claim ends, `last` being that of the one before it (R336). -/
def BankClaim.ends (c : BankClaim) (last : Nat) : Nat := Nat.max (c.cycle + c.lat) last + c.work

/-- Whether claim a comes before claim b of its pipe: by the cycle of the claim, then W, A, C, bank number (R336). -/
def BankClaim.before (a b : BankClaim) : Bool :=
  decide (a.cycle < b.cycle)
    || (a.cycle == b.cycle && decide (bankCode a.bank.buf a.bank.n < bankCode b.bank.buf b.bank.n))

/-- Puts a claim into its place behind those that come before it or tie with it. -/
def insertClaim (c : BankClaim) : List BankClaim → List BankClaim
  | [] => [c]
  | d :: l => if c.before d then c :: d :: l else d :: insertClaim c l

/-- The claims of a bank that are not over. -/
def State.claimsOf (s : State) (b : BankRef) : List BankClaim := (s.pipe b.pipe).claims.filter fun c => c.bank == b

/-- Whether a job has a claim of a bank that is not over. -/
def State.claimPending (s : State) (j : Nat) (b : BankRef) : Bool := (s.claimsOf b).any fun c => c.job == j

/-- What claiming a bank costs a job (R335): a bank that has been, or is to be, written to the job's image is filled from it. -/
def State.claimKind (s : State) (j : Nat) (v : Job) (b : BankRef) : ClaimKind :=
  let o := s.owner b
  if o.job = some j then .own
  else if v.images.contains (b.pipe.code, bankCode b.buf b.n)
      || (s.claimsOf b).any (fun c => c.kind == .writeOut && c.victim == some j) then .fill
  else if o.job.isSome then .writeOut
  else if o.last = some v.space then (if s.claimsOf b = [] then .free else .behind)
  else .clear

/-- The latency of a claim (R336, R337): L_W of the job's latencies for a write-out, L_A for a fill. -/
def ClaimKind.latency (k : ClaimKind) (v : Job) : Nat :=
  match k with
  | .writeOut => v.latW
  | .fill => v.latA
  | _ => 0

/-- A job claims a bank; `d` is the actual stamp of a hold declaration, if the claim makes one (R336). -/
def State.claimBank (s : State) (j : Nat) (v : Job) (d : Option Nat) (b : BankRef) : State :=
  let kind := s.claimKind j v b
  let o := s.owner b
  let mine (s : State) : State := s.setOwner b { o with job := some j }
  let wait (declares : Bool) : State :=
    let (k, s1) := s.pick (kind.latency v + 1)
    let c : BankClaim := { bank := b, kind := kind, job := j, victim := o.job, cycle := s.wcc, lat := k }
    let s2 := (mine s1).modPipe b.pipe fun p => { p with claims := insertClaim c p.claims }
    match d with
    | some d => if declares then s2.declare v.part j d (.bank b) else s2
    | none => s2
  match kind with
  | .own => s
  | .free => mine s
  | .behind => wait false
  | .clear | .writeOut | .fill => wait true

/-- Claims every bank of ranges (R336): the claims of one cycle come in the order W, A, C, bank number. -/
def State.claimRanges (s : State) (j : Nat) (v : Job) (d : Option Nat) (rs : List Range) : State :=
  (rs.map fun r => (banksOf r.buf r.off r.len).map fun n => (⟨r.pipe, r.buf, n⟩ : BankRef)).flatten.foldl
    (fun st b => st.claimBank j v d b) s

/-! ## Operations in flight -/

/-- The ranges that the plan of an operation of pipe p reads, and further ones: an entropy-coded tile, the slots that a command
accumulates into. -/
def readRanges (p : PipeRef) (op : Op) (more : List Range) : List Range :=
  (op.plan.filterMap fun x => match x.act with
    | .read q b off len _ _ => some ⟨q, b, off, len⟩
    | .units off len _ _ => some ⟨p, .c, off, len⟩
    | _ => none) ++ more

/-- Whether ranges meet a bank. -/
def rangesTouch (rs : List Range) (b : BankRef) : Bool :=
  rs.any fun r => r.pipe == b.pipe && r.buf == b.buf && (banksOf r.buf r.off r.len).contains b.n

/-- Whether something in flight of a job that itself waits for no claim of a bank touches it: an operation, or a load of a
mapped range that waits at the pipe. The bank is not written out, cleared or filled before that is over (R334, R336). -/
def State.bankTouched (s : State) (b : BankRef) : Bool :=
  (s.pipes.any fun e => e.2.ops.any fun o => !s.claimPending o.2.job b && rangesTouch (o.2.reads ++ o.2.dsts) b)
    || (s.pipe b.pipe).waiters.any fun r => (match r.job with
        | some j => !s.claimPending j b && rangesTouch [⟨r.pipe, r.buf, r.off, r.size⟩] b
        | none => false)

/-- Whether a claim of a bank keeps an operation or an access of a job from it: the claim is that job's own and not over
(R336). -/
def State.bankWaits (s : State) (job : Nat) (q : PipeRef) (b : Buf) (off len : Nat) : Bool :=
  (banksOf b off len).any fun n => s.claimPending job ⟨q, b, n⟩

/-- Whether two ranges share a byte. -/
def rangesOverlap (a n b m : Nat) : Bool := decide (a < b + m) && decide (b < a + n)

/-- Whether a list of ranges shares bytes with a range. -/
def meetsRange (rs : List Range) (r : Range) : Bool :=
  rs.any fun x => x.pipe == r.pipe && x.buf == r.buf && rangesOverlap x.off x.len r.off r.len

/-- Whether the range that a load fills shares bytes with a range. -/
def Op.fills (op : Op) (b : Buf) (off len : Nat) : Bool :=
  op.dest == b && op.units.any fun u => rangesOverlap u.off u.len off len

/-- Whether a load has landed. -/
def Op.landed (op : Op) : Bool := op.units.all fun u => u.landed

/-- The fault of a launch word of a job at an actual stamp that reads ranges: late-load (R141) or the horizon (R193). -/
def State.readFault (s : State) (j : Nat) (v : Job) (stamp : Nat) (rs : List Range) : Option (Nat × Nat) :=
  let late (r : Range) : Bool := (s.pipe r.pipe).ops.any fun e =>
    e.2.job == j && e.2.tag != 0 && !e.2.units.isEmpty && !e.2.landed && !e.2.awaited && decide (e.2.deadline ≤ stamp)
      && e.2.fills r.buf r.off r.len
  let near (r : Range) : Bool := (s.pipe r.pipe).awaits.any fun e =>
    decide (e.2.1 ≤ stamp) && decide (stamp < e.2.1 + s.horizon v.part) && meetsRange e.2.2 r
  if rs.any near then some (4, 3) else if rs.any late then some (18, 0) else none

/-- An operation issued now by the acting stream, with nothing planned. -/
def State.newOp (s : State) (j : Nat) (v : Job) (i : Instr) (args : List Word) (interval : Nat) : Op :=
  { job := j, eng := s.sf.eng, word := i, args := args, fmt := none, code := 0, rnd := s.st.sets.rnd,
    irnd := s.st.sets.irnd, issue := s.clock v s.sf.pipe, rel := 0, interval := interval, stretch := 0, plan := [],
    bytes := [], slots := [], shape := none, rows := 0, tag := 0, dest := .a, units := [], deadline := 0,
    awaited := false, ecPos := 0, dead := false, writes := [], reads := [], dsts := [] }

/-- What a launch word's issue gives: a fault code with its detail, or the interval and the state. -/
abbrev Issued := Except (Nat × Nat) (Nat × State)

/-- Starts an operation: the checks on what it reads, its claims, and its place among the pipe's operations. -/
def State.startOp (s : State) (j : Nat) (v : Job) (op : Op) (more dsts : List Range) : Issued :=
  let p := s.sf.pipe
  let reads := readRanges p op more
  match s.readFault j v op.issue reads with
  | some f => .error f
  | none =>
    let s1 := s.claimRanges j v (some op.issue) (reads ++ dsts)
    let (id, s2) := s1.number
    .ok (op.interval, s2.modPipe p fun x => { x with ops := x.ops.put id { op with reads := reads, dsts := dsts } })

/-! ## Stacks and the issue of a launch word (R113 to R116) -/

/-- A free word: its effect on the stack; a push onto eight entries raises stack-overflow (R113). -/
def freeWord (s : State) (f : List Word → Except Nat (List Word)) : Out :=
  onJob s fun j v s =>
    match f s.st.stack with
    | .error c => .next (s.raiseAt j v s.sf c 0)
    | .ok l =>
      if 8 < l.length then .next (s.raiseAt j v s.sf 2 0) else .next (s.modSt fun t => { t with stack := l })

/-- A launch word issues: the busy test (R116, R200), the first-launch test of a redirected stream (R190), its pops, its
operation. After it LAST = NEXT, and decoding resumes in the next cycle (R114, R115). -/
def launch (s : State) (i : Instr) (pops : Nat) (k : Nat → Job → List Word → State → Issued) : Out :=
  onJob s fun j v s =>
    let t := s.st
    if !i.wf then .next (s.raiseAt j v s.sf 1 0)
    else if t.next < t.last + t.lastInterval + t.lastStretch then .next (s.raiseAt j v s.sf 4 2)
    else if (match t.bound with
        | some b => decide (actualStamp v t < b)
        | none => false) then .next (s.raiseAt j v s.sf 4 3)
    else if t.stack.length < pops then .next (s.raiseAt j v s.sf 3 0)
    else
      match k j v (t.stack.take pops) (s.modSt fun t => { t with stack := t.stack.drop pops }) with
      | .error (c, d) => .next (s.raiseAt j v s.sf c d)
      | .ok (n, s1) =>
        .next (s1.modSt fun t =>
          { t with
            last := t.next, lastInterval := n, lastStretch := 0, stamped := false, bound := none, budget := 4,
            dec := if t.dec = .ended then .ended else .decoding })

/-- A check that raises bad-geometry. -/
def geometry (ok : Bool) (k : Issued) : Issued := if ok then k else .error (7, 0)

/-- A check that raises buffer-range. -/
def inBuffer (b : Buf) (off len : Nat) (k : Issued) : Issued := if off + len ≤ bufSize b then k else .error (8, 0)

/-- Word k of the operands, the one popped first being 0. -/
def arg (l : List Word) (k : Nat) : Nat := ((l[k]?).getD 0).toNat

/-- A shape record of a job, or none. -/
def Job.shape (v : Job) (n : Nat) : Option ShapeRecord := v.shapes[n]?

/-- The row count that an operand n names for shape j on a pipe: the live count for 0; shape-bound above ROWS (R136,
R139). -/
def State.rowCount (s : State) (p : PipeRef) (j n : Nat) (sh : ShapeRecord) : Except (Nat × Nat) Nat :=
  if n = 0 then .ok (((s.pipe p).live.get? j).getD sh.rows)
  else if sh.rows < n then .error (9, 0) else .ok n

/-! ## Serving the banks (R198, R199) -/

/-- One access of an operation that asks for a bank in the current cycle. -/
structure Access where
  issue : Nat
  eng : Nat
  peer : Bool
  addr : Nat
  pipe : PipeRef
  op : Nat
  act : Act
  deriving DecidableEq, Repr

/-- The order of R199. -/
def Access.before (a b : Access) : Bool :=
  if a.issue ≠ b.issue then decide (a.issue < b.issue)
  else if a.eng ≠ b.eng then decide (a.eng < b.eng)
  else if a.peer ≠ b.peer then b.peer
  else decide (a.addr < b.addr)

/-- Inserts an access behind those that go before it or tie with it. -/
def insertAccess (a : Access) : List Access → List Access
  | [] => [a]
  | b :: l => if a.before b then a :: b :: l else b :: insertAccess a l

/-- Whether an operation advances in the current cycle: its partition is not held and its pipe has the budget, or its job
no longer runs (R194, R203, R330, R334). -/
def State.opRuns (s : State) (p : PipeRef) (op : Op) : Bool :=
  match s.jobs.get? op.job with
  | none => true
  | some v => if v.state = .running then !(s.part v.part).held && !(s.pipe p).budgetHeld else true

/-- Whether an act needs a bank cycle, and which: pipe, buffer, offset. -/
def Act.bank (a : Act) (p : PipeRef) : Option (PipeRef × Buf × Nat) :=
  match a with
  | .read q b off _ _ sched => if sched then some (q, b, off) else none
  | .claim b off _ => some (p, b, off)
  | .use b off _ _ => some (p, b, off)
  | .units off _ _ _ => some (p, .c, off)
  | _ => none

/-- The bytes that an act reads in its bank cycle, 0 for one that writes: the store buffer may hold them (R270). -/
def Act.readLen (a : Act) : Nat :=
  match a with
  | .read _ _ _ len _ _ => len
  | .use _ _ len _ => len
  | _ => 0

/-- The accesses of an operation in the current cycle. -/
def Op.accesses (op : Op) (p : PipeRef) (id : Nat) : List Access :=
  op.plan.filterMap fun x =>
    if op.rel < x.cycle then none
    else
      let at_ (q : PipeRef) (off : Nat) : Access :=
        { issue := op.issue, eng := op.eng.idx, peer := q != p, addr := off, pipe := p, op := id, act := x.act }
      match x.act with
      | .read q _ off _ _ _ => some (at_ q off)
      | .claim _ off _ => some (at_ p off)
      | .use _ off _ _ => some (at_ p off)
      | .units off _ _ _ => some (at_ p off)
      | .ec q off _ => some (at_ q off)
      | .request _ => some (at_ p 0)
      | .complete _ => none

/-- Whether the store buffer of a pipe holds every byte of a range of A: reading it needs no bank cycle (R270). -/
def State.buffered (s : State) (q : PipeRef) (b : Buf) (off len : Nat) : Bool :=
  b == .a && (List.range len).all fun i => (bufferedByte (s.pipe q).sbuf (off + i)).isSome

/-- Whether a bank is free for one more access of the current cycle (R198). -/
def State.bankFree (s : State) (q : PipeRef) (b : Buf) (off : Nat) : Bool :=
  match b with
  | .w => true
  | .a => !(s.pipe q).usedA.contains (bankOf .a off)
  | .c => !(s.pipe q).usedC.contains (bankOf .c off)

/-- Marks a bank used in the current cycle. -/
def State.useBank (s : State) (q : PipeRef) (b : Buf) (off : Nat) : State :=
  s.modPipe q fun v => match b with
    | .w => v
    | .a => { v with usedA := bankOf .a off :: v.usedA }
    | .c => { v with usedC := bankOf .c off :: v.usedC }

/-- Captures slots of C under keys from `key` on. -/
def State.captureSlots (s : State) (op : Op) (q : PipeRef) (off len key : Nat) : Op :=
  { op with slots := (List.range (len / 32)).foldl (fun t i => t.put (key + i) (s.slotAt q (off / 32 + i))) op.slots }

/-- Captures what a read act of an operation of pipe p brings. -/
def State.capture (s : State) (p : PipeRef) (op : Op) (a : Act) : Op :=
  match a with
  | .units off len key _ => s.captureSlots op p off len key
  | .read q .c off len key _ => s.captureSlots op q off len key
  | .read q b off len key _ => { op with bytes := op.bytes.setBytes key (s.bufGet q b off len) }
  | _ => op

/-- The W tile of an entropy-coded command: its next eight blocks, or none for ec-decode (R162, R212). -/
def State.decodeEc (s : State) (op : Op) (p : PipeRef) (off n : Nat) : Option Op :=
  let code := wbits ((op.fmt.map fun f => f.word).getD 0) 59 5
  let step (o : Option Op) (i : Nat) : Option Op :=
    match o with
    | none => none
    | some o =>
      match ecBlock code op.code (s.wGet p (off + o.ecPos) 64) with
      | none => none
      | some (es, k) =>
        some { o with ecPos := o.ecPos + k,
                      bytes := o.bytes.setBytes (2 ^ 40 + (n * 8 + i) * 32) (es.map fun e => BitVec.ofNat 8 e) }
  (List.range 8).foldl step (some op)

/-- Serves one access, if its bank is free and no claim of the bank is in progress (R199, R336). -/
def State.serve (s : State) (a : Access) : State :=
  match (s.pipe a.pipe).ops.get? a.op with
  | none => s
  | some op =>
    let blocked : Bool := match a.act with
      | .read q b off len _ _ => s.bankWaits op.job q b off len
      | .claim b off _ => s.bankWaits op.job a.pipe b off 1
      | .use b off _ _ => s.bankWaits op.job a.pipe b off 1
      | .units off len _ _ => s.bankWaits op.job a.pipe .c off len
      | .ec q off _ => s.bankWaits op.job q .w (off + op.ecPos) 64
      | .request _ | .complete _ => false
    let drop (o : Op) : Op := { o with plan := o.plan.eraseP fun x => x.act == a.act && decide (x.cycle ≤ o.rel) }
    let put (st : State) (o : Op) : State := st.modPipe a.pipe fun v => { v with ops := v.ops.put a.op o }
    if blocked then s
    else
      match a.act with
      | .ec q off n =>
        if op.dead then put s (drop op)
        else
          match s.decodeEc op q off n with
          | some o => put s (drop o)
          | none =>
            let s1 := put s (drop { op with dead := true })
            match s.jobs.get? op.job with
            | some v => s1.raiseAt op.job v ⟨a.pipe, op.eng⟩ 22 0
            | none => s1
      | .request i =>
        let next : List Planned := if i + 1 < op.units.length then [⟨i + 1, .request (i + 1)⟩] else []
        (put s { drop op with plan := (drop op).plan ++ next }).later .loadLanding (.op a.pipe a.op i)
      | _ =>
        let done := put s (drop (s.capture a.pipe op a.act))
        match a.act.bank a.pipe with
        | none => done
        | some (q, b, off) =>
          if 0 < a.act.readLen ∧ s.buffered q b off a.act.readLen then done
          else if s.bankFree q b off then done.useBank q b off else s

/-- Every access of the current cycle, in the order of R199. -/
def State.cycleAccesses (s : State) : List Access :=
  s.pipes.foldl (fun l e =>
    let p := PipeRef.ofCode e.1
    e.2.ops.foldl (fun l o => if s.opRuns p o.2 then (o.2.accesses p o.1).foldl (fun l a => insertAccess a l) l else l) l) []

/-- Serves the banks of the current cycle. -/
def State.serveBanks (s : State) : State := s.cycleAccesses.foldl (fun st a => st.serve a) s

/-- Whether an operation has an access of this cycle left unserved: it is stretched (R199). -/
def Op.unserved (op : Op) : Bool :=
  op.plan.any fun x => match x.act with
    | .read _ _ _ _ _ _ | .claim _ _ _ | .ec _ _ _ => decide (x.cycle ≤ op.rel)
    | .use _ _ _ last | .units _ _ _ last => decide (last ≤ op.rel)
    | .request _ | .complete _ => false

/-- Whether a unit of an operation hands on, in the cycle of its read, what it reads: one that copies to device memory, and
GTA. -/
def Op.atOnce (op : Op) : Bool :=
  match op.word with
  | .cpah | .cprh _ _ | .spill | .gta _ => true
  | _ => false

/-- Whether such a unit of cycle c still waits for its read. -/
def Op.unread (op : Op) (c : Nat) : Bool :=
  op.atOnce && op.plan.any fun y => match y.act with
    | .read _ _ _ _ _ _ => decide (y.cycle ≤ c)
    | _ => false

/-- The first unit of an operation that completes in the current cycle: its write's claims have been served. -/
def Op.ready (op : Op) : Option Nat :=
  op.plan.findSome? fun x => match x.act with
    | .complete i =>
      if op.rel < x.cycle || op.unread x.cycle then none
      else if op.plan.any fun y => (match y.act with
          | .claim _ _ k => k == i
          | _ => false) then none
      else some i
    | _ => none

/-- Takes the completion of unit i out of a plan. -/
def Op.completed (op : Op) (i : Nat) : Op := { op with plan := op.plan.filter fun x => x.act != .complete i }

/-- Whether an operation has nothing left to do: plan, interval, landings and writes. -/
def Op.over (op : Op) : Bool :=
  op.plan.isEmpty && op.landed && op.writes.isEmpty && decide (op.interval ≤ op.rel)

end Sys2Proof.Machine
end

