-- ==== Sys2Proof/Machine/Words.lean ====
section
/-! DEFINITION. Common stream words (R120 to R126), sequencer words (R127 to R137), and the faults of decoding (R29, R35). -/

namespace Sys2Proof.Machine

/-! ## Free words (R113, R120, R121) -/

/-- LIT (R29): pushes its 15 bits. -/
def execLit (v : BitVec 15) (s : State) : Out := freeWord s fun l => .ok (zx v :: l)

/-- EXT (R29): s0 := s0 × 2^14 + its 14 bits. -/
def execExt (v : BitVec 14) (s : State) : Out :=
  freeWord s fun l => match l with
    | x :: r => .ok ((x <<< 14 ||| zx v) :: r)
    | [] => .error 3

/-- DUP. -/
def execDup (s : State) : Out :=
  freeWord s fun l => match l with
    | x :: r => .ok (x :: x :: r)
    | [] => .error 3

/-- DROP. -/
def execDrop (s : State) : Out :=
  freeWord s fun l => match l with
    | _ :: r => .ok r
    | [] => .error 3

/-- SWAP. -/
def execSwap (s : State) : Out :=
  freeWord s fun l => match l with
    | x :: y :: r => .ok (y :: x :: r)
    | _ => .error 3

/-- OVER. -/
def execOver (s : State) : Out :=
  freeWord s fun l => match l with
    | x :: y :: r => .ok (y :: x :: y :: r)
    | _ => .error 3

/-- ADDS: b is popped first. -/
def execAdds (s : State) : Out :=
  freeWord s fun l => match l with
    | b :: a :: r => .ok ((a + b) :: r)
    | _ => .error 3

/-- SUBS. -/
def execSubs (s : State) : Out :=
  freeWord s fun l => match l with
    | b :: a :: r => .ok ((a - b) :: r)
    | _ => .error 3

/-- SHLS: left, right logical, right arithmetic; k = 3 is illegal-word. -/
def execShls (k : BitVec 2) (n : BitVec 6) (s : State) : Out :=
  freeWord s fun l => match l with
    | x :: r =>
      match k.toNat with
      | 0 => .ok ((x <<< n.toNat) :: r)
      | 1 => .ok ((x >>> n.toNat) :: r)
      | 2 => .ok (x.sshiftRight n.toNat :: r)
      | _ => .error 1
    | [] => if k = 3 then .error 1 else .error 3

/-- NOPW. -/
def execNopw (s : State) : Out := freeWord s fun l => .ok l

/-- SELK (R135): c, a and b are popped in that order. -/
def execSelk (s : State) : Out :=
  freeWord s fun l => match l with
    | c :: a :: b :: r => .ok ((if c ≠ 0 then a else b) :: r)
    | _ => .error 3

/-- A free word that pops one operand. -/
def freePop (s : State) (k : Nat → Job → Word → State → Out) : Out :=
  onJob s fun j v s =>
    match s.st.stack with
    | [] => .next (s.raiseAt j v s.sf 3 0)
    | x :: r => k j v x (s.modSt fun t => { t with stack := r })

/-- AT (R115). -/
def execAtW (s : State) : Out :=
  freePop s fun _ _ x s => .next (s.modSt fun t => { t with next := x.toNat, stamped := true })

/-- DT (R115). -/
def execDt (s : State) : Out :=
  freePop s fun _ _ x s => .next (s.modSt fun t => { t with next := t.last + x.toNat, stamped := true })

/-- SETF (R126): the value must lie in its range. -/
def execSetf (n : BitVec 8) (s : State) : Out :=
  freePop s fun j v x s =>
    let k := n.toNat
    let x := x.toNat
    if 4 < k then .next (s.raiseAt j v s.sf 1 0)
    else
      let ok := if k ≤ 1 then decide (x ≤ 1) else if k = 2 then decide (x < 2 ^ 32) else decide (x < s.st.code.length)
      if !ok then .next (s.raiseAt j v s.sf 7 0)
      else
        .next (s.modSt fun t => { t with sets :=
          match k with
          | 0 => { t.sets with rnd := x }
          | 1 => { t.sets with irnd := x }
          | 2 => { t.sets with lcount := x }
          | 3 => { t.sets with lstart := x }
          | _ => { t.sets with lend := x } })

/-! ## Hardware loops (R122) -/

/-- LOOP: the body follows; with a count of 0 the decoder skips it, from the next cycle on. A loop that is skipped is never open,
so it is no fifth nested loop. [log 103] -/
def execLoopW (s : State) : Out :=
  freePop s fun j v x s =>
    if 2 ^ 32 ≤ x.toNat then .next (s.raiseAt j v s.sf 7 0)
    else if x = 0 then .next (s.modSt fun t => { t with dec := .skipping 0, budget := 4 })
    else if 4 ≤ s.st.loops.length then .next (s.raiseAt j v s.sf 6 0)
    else
      .next (s.modSt fun t => { t with loops := { count := x.toNat, start := t.pos, last := none } :: t.loops })

/-- LOOP.reg: LEND must lie on an ENDL word. One with LCOUNT = 0 opens no loop. [log 103] -/
def execLoopReg (s : State) : Out :=
  onJob s fun j v s =>
    let t := s.st
    if t.code[t.sets.lend]? ≠ some 0xCB00 then .next (s.raiseAt j v s.sf 6 0)
    else if t.sets.lcount = 0 then .next (s.modSt fun t => { t with pos := t.sets.lend + 1, budget := 4 })
    else if 4 ≤ t.loops.length then .next (s.raiseAt j v s.sf 6 0)
    else
      .next (s.modSt fun t =>
        { t with
          pos := t.sets.lstart,
          loops := { count := t.sets.lcount, start := t.sets.lstart, last := some t.sets.lend } :: t.loops })

/-- ENDL: a taken ENDL ends its decode cycle (R114). -/
def execEndl (s : State) : Out :=
  onJob s fun j v s =>
    match s.st.loops with
    | [] => .next (s.raiseAt j v s.sf 6 0)
    | f :: r =>
      if 1 < f.count then
        .next (s.modSt fun t => { t with loops := { f with count := f.count - 1 } :: r, pos := f.start, budget := 4 })
      else
        .next (s.modSt fun t => { t with loops := r, pos := match f.last with
          | some l => l + 1
          | none => t.pos })

/-! ## Launch words of every stream (R123 to R125) -/

/-- Inserts an RDV store by stamp, then by pipe and engine (R123). -/
def insertMilestone (a : Nat × Nat × Word) : List (Nat × Nat × Word) → List (Nat × Nat × Word)
  | [] => [a]
  | b :: l =>
    if a.1 < b.1 ∨ (a.1 = b.1 ∧ a.2.1 < b.2.1) then a :: b :: l else b :: insertMilestone a l

/-- RDV (R123): the store follows in its order. -/
def execRdv (s : State) : Out :=
  launch s .rdv 1 fun j v l s =>
    let x := (l[0]?).getD 0
    let m := (s.clock v s.sf.pipe, v.rel s.sf.pipe.p * 8 + s.sf.eng.idx, x)
    let s1 := s.modJob j fun v => { v with milestones := insertMilestone m v.milestones }
    .ok (1, s1.dueAt (s1.wcc + 1) .milestoneStore (.jobWord j x))

/-- PPT (R124): in SEQ a pre-emption point; elsewhere a launched NOPW. -/
def execPpt (s : State) : Out :=
  launch s .ppt 0 fun _ v _ s =>
    let c := s.clock v s.sf.pipe
    .ok (1, if s.sf.eng = .seq then s.modPipe s.sf.pipe fun p => { p with pptAt := some c } else s)

/-- HALTJ (R125): the stream ends and counts as joined. -/
def execHaltj (s : State) : Out :=
  launch s .haltj 0 fun _ _ _ s =>
    let s1 := s.modSt fun t => { t with dec := .ended }
    .ok (0, if s.sf.eng = .seq then s1.modPipe s.sf.pipe fun p => { p with seqEnded := true } else s1)

/-! ## Sequencer words (R127 to R137): interval 1 -/

/-- A sequencer word that changes the pipe. -/
def onPipe (s : State) (f : Pipe → Pipe) : Issued := .ok (1, s.modPipe s.sf.pipe f)

/-- FMT (R127). -/
def execFmt (s : State) : Out :=
  launch s .fmt 1 fun _ _ l s =>
    let p := s.pipe s.sf.pipe
    if 16 ≤ p.fmtq.length then .error (10, 0)
    else
      onPipe s fun p => { p with fmtq := p.fmtq ++
        [{ word := (l[0]?).getD 0, tw := p.scaleW, ta := p.scaleA, anchor := p.anchor }] }

/-- Whether a length word is a legal code table (R128). -/
def codeTableOk (t : Word) : Bool :=
  let ls := (List.range 16).map fun j => codeLength t j
  ls.all (fun x => decide (x ≤ 8)) && ls.any (fun x => x != 0)
    && decide ((ls.map fun x => if x = 0 then 0 else 2 ^ (8 - x)).foldl (· + ·) 0 ≤ 256)

/-- CTAB (R128): L is popped first. -/
def execCtab (s : State) : Out :=
  launch s .ctab 2 fun _ _ l s =>
    let t := (l[0]?).getD 0
    geometry (decide (arg l 1 ≤ 15)) <|
      if !codeTableOk t then .error (15, 0) else onPipe s fun p => { p with ctabs := p.ctabs.put (arg l 1) t }

/-- A tensor scale: finite, in 32 bits (R129). -/
def tensorScale (s : State) (i : Instr) (f : Pipe → BitVec 32 → Pipe) : Out :=
  launch s i 1 fun _ _ l s =>
    let v := arg l 0
    geometry (decide (v < 2 ^ 32)) <|
      if f32.expo v = 255 then .error (14, 0) else onPipe s fun p => f p (BitVec.ofNat 32 v)

/-- TSCL.w (R129). -/
def execTsclW (s : State) : Out := tensorScale s .tsclW fun p v => { p with scaleW := v }
/-- TSCL.a (R129). -/
def execTsclA (s : State) : Out := tensorScale s .tsclA fun p v => { p with scaleA := v }

/-- MANC (R130). -/
def execManc (s : State) : Out :=
  launch s .manc 1 fun _ _ l s =>
    let a := ((l[0]?).getD 0).toInt
    geometry (decide (-512 ≤ a) && decide (a ≤ 511)) (onPipe s fun p => { p with anchor := some a })

/-- MANC.off (R130). -/
def execMancOff (s : State) : Out := launch s .mancOff 0 fun _ _ _ s => onPipe s fun p => { p with anchor := none }

/-- A window's close value list and slots are indexed by slot number; the value of slot k. -/
def Window.value (w : Window) (k : Nat) : Option Nat := (w.fixed[k]?).join

/-- Compatibility mode refuses a word (R203). -/
def native (v : Job) (k : Issued) : Issued := geometry (!v.compat) k

/-- Whether a window is armed by a pipe and not yet closed at a stamp. -/
def Window.openFor (w : Window) (p : Nat) (c : Nat) : Bool := w.armedBy.contains p && decide (c < w.closeAt)

/-- Arms a window of a job; each stream of the pipe owes a redirect to a segmented one. What an earlier arming of the record
fixed stays for the streams that still owe it a redirect (R188). -/
def State.arm (s : State) (j i : Nat) (o : OasisRecord) (w : Window) : State :=
  let s1 := s.modJob j fun v =>
    { v with
      windows := v.windows.put i w
      past := match v.windows.get? i with
        | some old => if o.segtab.isSome && old.openAt != w.openAt then v.past ++ [(i, old)] else v.past
        | none => v.past }
  if o.segtab.isNone then s1
  else
    engines.foldl (fun st e => st.modStream ⟨s.sf.pipe, e⟩ fun t =>
      if t.started && t.dec != .ended then { t with owed := t.owed ++ [(i, w.openAt)] } else t) s1

/-- OASIS (R131, R186): i is popped first, then b. -/
def execOasis (s : State) : Out :=
  launch s .oasis 2 fun j v l s =>
    native v <|
      let i := arg l 0
      let p := s.sf.pipe
      let c := s.clock v p
      match v.oases[i]? with
      | none => .error (7, 0)
      | some o =>
        let at_ : Int := (v.start : Int) + (toWord o.openAt + (l[1]?).getD 0).toNat + s.st.bias
        let o1 := at_.toNat
        let o2 := o1 + o.len
        if at_ ≤ (c : Int) then .error (4, 5)
        else if v.windows.any fun e => e.2.openFor p.p c && rangesOverlap o1 (o2 - o1) e.2.openAt (e.2.closeAt - e.2.openAt) then
          .error (17, 0)
        else
          let fresh : Window :=
            { openAt := o1, closeAt := o2, armedAt := s.wcc, armedBy := [p.p], closed := false,
              posted := o.slots.map fun _ => none, fixed := o.slots.map fun _ => none, sel := 0, lateAt := none }
          let joined := match v.windows.get? i with
            | some w => if c < w.closeAt then some w else none
            | none => none
          match joined with
          | some w =>
            if w.openAt ≠ o1 ∨ w.closeAt ≠ o2 then .error (17, 0)
            else .ok (1, s.arm j i o { w with armedBy := w.armedBy ++ [p.p] })
          | none => .ok (1, s.arm j i o fresh)
/-- The engine that TAKE's code names (R132). -/
def takeEngine (e : BitVec 3) : Engine :=
  match e.toNat with
  | 0 => .seq
  | 1 => .lde
  | 2 => .mxe
  | 3 => .vxe
  | _ => .cpe

/-- TAKE (R132): k is popped first, then i. The push comes last in the cycle (R118). -/
def execTake (e : BitVec 3) (s : State) : Out :=
  launch s (.take e) 2 fun j v l s =>
    native v <|
      let k := arg l 0
      let i := arg l 1
      let x : StreamRef := ⟨s.sf.pipe, takeEngine e⟩
      let c := s.clock v s.sf.pipe
      match v.oases[i]? with
      | none => .error (7, 0)
      | some o =>
        let t := s.stream x
        geometry (decide (k < o.slots.length) && t.started && t.dec != .ended) <|
          match v.windows.get? i with
          | none => .error (4, 3)
          | some w =>
            if c < w.closeAt + s.horizon v.part then .error (4, 3)
            else if 8 ≤ t.stack.length then .ok (1, s.raiseAt j v x 2 0)
            else .ok (1, s.modStream x fun t => { t with stack := toWord ((w.value k).getD 0) :: t.stack })

/-- SEGT (R133): k is popped first, then i. -/
def execSegt (s : State) : Out :=
  launch s .segt 2 fun j v l s =>
    native v <|
      let k := arg l 0
      let i := arg l 1
      match v.oases[i]? with
      | none => .error (7, 0)
      | some o =>
        match o.segtab, o.slots[k]? with
        | some t, some d =>
          let closed : Bool := match v.windows.get? i with
            | some w => decide (w.closeAt ≤ s.clock v s.sf.pipe)
            | none => false
          if (v.segtabs[t]?.getD []).length ≤ d.bound then .error (16, 0)
          else if closed then .error (4, 5)
          else .ok (1, s.modJob j fun v => { v with selectors := v.selectors.put i k })
        | _, _ => .error (7, 0)

/-- The most recent load of a tag on a pipe, if it is still in flight. -/
def Pipe.latestLoad (p : Pipe) (tag : Nat) : Option (Nat × Op) :=
  match p.latest.get? tag with
  | some id => (p.ops.get? id).map fun op => (id, op)
  | none => none

/-- An AWAIT of a tag issues: it is the latest of its tag, for every load of the tag so far (R193). [log 39] -/
def Pipe.noteAwait (p : Pipe) (tag stamp : Nat) : Pipe :=
  { p with awaits := p.awaits.put tag (stamp, (p.tagRanges.get? tag).getD []) }

/-- Launch words issued in the AWAIT's own cycle that read what the tag fills lie in its horizon too (R193): they raise
schedule-miss and do nothing. -/
def State.awaitHorizon (s : State) (j : Nat) (v : Job) (tag stamp : Nat) : State :=
  let rs := (((s.pipe s.sf.pipe).awaits.get? tag).map fun a => a.2).getD []
  let bad (op : Op) : Bool := op.issue == stamp && op.reads.any fun r => meetsRange rs r
  v.refs.foldl (fun st q =>
    (st.pipe q).ops.foldl (fun st e =>
      if e.2.job == j && bad e.2 then
        (st.raiseAt j v ⟨q, e.2.eng⟩ 4 3).modPipe q fun w => { w with ops := w.ops.drop e.1 }
      else st) st) s

/-- AWAIT (R134, R191). -/
def execAwait (n : BitVec 4) (s : State) : Out :=
  launch s (.await n) 0 fun j v _ s =>
    let p := s.sf.pipe
    let c := s.clock v p
    let tag := n.toNat
    let s1 := (s.modPipe p fun w => w.noteAwait tag c).awaitHorizon j v tag c
    match (s.pipe p).latestLoad tag with
    | none => .ok (1, s1)
    | some (id, op) =>
      if op.landed then .ok (1, s1)
      else
        let s2 := s1.modPipe p fun w => { w with ops := w.ops.put id { op with awaited := true } }
        .ok (1, s2.declare v.part j c (.await p id))

/-- SHAPE (R136): n is popped first, then j. A count outside the limits sets ROWS, and raises shape-bound. -/
def execShape (s : State) : Out :=
  launch s .shape 2 fun j v l s =>
    let n := arg l 0
    match v.shape (arg l 1) with
    | none => .error (7, 0)
    | some sh =>
      let bad := n = 0 ∨ sh.rows < n
      let s1 := s.modPipe s.sf.pipe fun p => { p with live := p.live.put (arg l 1) (if bad then sh.rows else n) }
      .ok (1, if bad then s1.raiseAt j v s1.sf 9 0 else s1)

/-- RDPCC (R137): the written stamp, without the span bias. -/
def execRdpcc (s : State) : Out :=
  launch s .rdpcc 0 fun _ _ _ s =>
    if 8 ≤ s.st.stack.length then .error (2, 0)
    else .ok (1, s.modSt fun t => { t with stack := ofInt t.next :: t.stack })

/-! ## Decoding (R29, R35, R114, R121) -/

/-- ILLEGAL_WORD (R29, R30). -/
def execIllegalWord (s : State) : Out := onJob s fun j v s => .next (s.raiseAt j v s.sf 1 0)

/-- RUN_OFF (R35). -/
def execRunOff (s : State) : Out := onJob s fun j v s => .next (s.raiseAt j v s.sf 5 0)

/-- Whether a word is a free word (R113). -/
def isFreeWord : Instr → Bool
  | .lit _ | .ext _ | .dup | .drop | .swap | .over | .adds | .subs | .shls _ _ | .atW | .dt | .loopW | .loopReg | .endl
  | .setf _ | .nopw | .selk => true
  | _ => false

/-- A launch word has been decoded: its stamp is fixed (R115), and it waits for it, or has a stamp that never comes (R121),
that lies below the bound of a redirect (R190), or that is over: busy when the last operation's interval is not over at it
(R116), else late (R114). [log 27] -/
def State.becomeReady (s : State) (j : Nat) (v : Job) (w : Instr) : State :=
  let s1 := s.modSt fun t => if t.stamped then t else { t with next := t.last + t.lastInterval, stamped := true }
  let t := s1.st
  let a := actualStamp v t
  if (2 ^ 64 : Int) ≤ (v.start : Int) + t.next ∨ (2 ^ 64 : Int) ≤ a then s1.raiseAt j v s.sf 7 0
  else if (match t.bound with
      | some b => decide (a < b)
      | none => false) then s1.raiseAt j v s.sf 4 3
  else if a < (s.clock v s.sf.pipe : Int) then
    s1.raiseAt j v s.sf 4 (if t.next < t.last + t.lastInterval + t.lastStretch then 2 else 1)
  else s1.modSt fun t => { t with dec := .launch w a.toNat }

/-- DECODE_START (R114): the job's streams begin to decode at S − 64; a stream of length 0 is not started. -/
def execDecodeStart (s : State) : Out :=
  match s.ev with
  | .job j =>
    match s.jobs.get? j with
    | none => .next s
    | some v =>
      let xs := (v.refs.map fun p => engines.map fun e => (⟨p, e⟩ : StreamRef)).flatten
      .next (xs.foldl (fun st x => st.modStream x fun t =>
        if t.started && t.dec == .idle then { t with dec := .decoding } else t) s)
  | _ => .next s

end Sys2Proof.Machine
end

