-- ==== Sys2Proof/Machine/LoadWords.lean ====
section
/-! DEFINITION. Load-engine words (R138 to R144), FILLC (R149), landings and deadlines (R140, R141, R198). -/

namespace Sys2Proof.Machine

/-- The stream fault that a failed translation of an engine address raises (R138, R317). -/
def streamCause (c : Nat) : Nat := if c = causeProtection then 25 else 19

/-- The fault that [va, va + n) meets when an engine of a device reads or writes it, page by page (R138, R317). -/
def State.engineFault (s : State) (d : Nat) (space : BitVec 16) (use : Use) (va : Nat) : Nat → Option Nat
  | 0 => none
  | k + 1 =>
    if deviceEnd ≤ va then some 19
    else
      match s.translate d space va use 1 false with
      | .error c => some (streamCause c)
      | .ok _ => s.engineFault d space use ((va / 65536 + 1) * 65536) k

/-- Notes the walks that the pages of [va, va + n) miss (R318). -/
def State.noteWalks (s : State) (d : Nat) (space : BitVec 16) (va n : Nat) : State :=
  (List.range (pagesOf va n)).foldl (fun st k => st.noteWalk d space (va / 65536 * 65536 + k * 65536)) s

/-- Checks an engine's device-memory range, all of it in the issue cycle [log 104]; one that begins in device memory and runs
past its end leaves its address space (Table 1 of R119). The walks it misses are noted. -/
def engineRange (s : State) (v : Job) (use : Use) (va n : Nat) (k : State → Issued) : Issued :=
  if va < deviceEnd ∧ deviceEnd < va + n then .error (8, 0)
  else
    match s.engineFault v.part.dev v.space use va (pagesOf va n) with
    | some c => .error (c, 0)
    | none => k (s.noteWalks v.part.dev v.space va n)

/-- The units of n bytes from an address to an offset: one for each 64-byte line of the buffer that they meet (R140). -/
def unitsOf (va off n : Nat) : List LoadUnit :=
  (List.range (if n = 0 then 0 else (off + n - 1) / 64 - off / 64 + 1)).map fun u =>
    let lo := Nat.max off ((off / 64 + u) * 64)
    let hi := Nat.min (off + n) ((off / 64 + u + 1) * 64)
    { addr := toWord (va + (lo - off)), off := lo, len := hi - lo, got := [], due := none, landed := false }

/-- A load of a tag issues: what it fills counts for the next AWAIT of the tag (R134, R193). -/
def Pipe.noteLoad (p : Pipe) (tag id : Nat) (fills : List Range) : Pipe :=
  if tag = 0 then p
  else
    { p with
      latest := p.latest.put tag id, tagRanges := p.tagRanges.put tag (((p.tagRanges.get? tag).getD []) ++ fills) }

/-- Starts a load: its units, tag and deadline, and the plan of its requests: one unit's in each plane cycle from the issue on
(R140, R194). -/
def State.startLoad (s : State) (j : Nat) (v : Job) (i : Instr) (l : List Word) (interval lat tag : Nat) (dest : Buf)
    (units : List LoadUnit) (plan : List Planned) : Issued :=
  let p := s.sf.pipe
  let op0 := s.newOp j v i l interval
  let op := { op0 with tag := tag, dest := dest, units := units, deadline := op0.issue + lat + interval, plan := plan }
  let fills : List Range := units.map fun u => ⟨p, dest, u.off, u.len⟩
  match s.startOp j v op [] fills with
  | .error e => .error e
  | .ok (n, s1) => .ok (n, s1.modPipe p fun w => w.noteLoad tag (s1.serial - 1) fills)

/-- The plan of a load whose requests start in a cycle. -/
def requestsFrom (cycle : Nat) : List Planned := [⟨cycle, .request 0⟩]

/-- Whether numbers are multiples of 64. -/
def lines64 (l : List Nat) : Bool := l.all fun x => x % 64 == 0

/-- LDW and LDS: len, off and addr are popped in that order. -/
def bufferLoad (s : State) (i : Instr) (tag base room : Nat) : Out :=
  launch s i 3 fun j v l s =>
    let len := arg l 0
    let off := arg l 1
    let va := arg l 2
    geometry (lines64 [len, off, va] && decide (64 ≤ len) && decide (len ≤ room) && (base == 0 || decide (off < room))) <|
      if room < off + len then .error (8, 0)
      else
        engineRange s v .read va len fun s =>
          s.startLoad j v i l (len / 64) v.latA tag .w (unitsOf va (base + off) len) (requestsFrom 0)

/-- LDW (R139). -/
def execLdw (n : BitVec 4) (s : State) : Out := bufferLoad s (.ldw n) n.toNat 0 0x180000
/-- LDS (R139): scale memory is W from 0x17_0000 on. -/
def execLds (n : BitVec 4) (s : State) : Out := bufferLoad s (.lds n) n.toNat 0x170000 0x10000

/-- The units of n rows of b bytes, packed at va, to the rows of a shape. -/
def rowUnits (va b n : Nat) (sh : ShapeRecord) : List LoadUnit :=
  ((List.range n).map fun r => unitsOf (va + r * b) (sh.base + r * sh.stride) b).flatten

/-- LDA's operands (Table 3 of R139): the shape, b and the row count. -/
def rowOperands (s : State) (v : Job) (l : List Word) (k : Nat → Nat → Nat → ShapeRecord → Issued) : Issued :=
  match v.shape (arg l 2) with
  | none => .error (7, 0)
  | some sh =>
    let b := arg l 1
    let va := arg l 3
    geometry (sh.buf == .a && lines64 [sh.stride, sh.base, b, va] && decide (64 ≤ b) && decide (b ≤ sh.stride)) <|
      match s.rowCount s.sf.pipe (arg l 2) (arg l 0) sh with
      | .error e => .error e
      | .ok n => k va b n sh

/-- LDA (R139): n, b, j and addr are popped in that order. -/
def execLda (n : BitVec 4) (s : State) : Out :=
  launch s (.lda n) 4 fun j v l s =>
    rowOperands s v l fun va b rows sh =>
      engineRange s v .read va (rows * b) fun s =>
        s.startLoad j v (.lda n) l (rows * b / 64) v.latA n.toNat .a (rowUnits va b rows sh) (requestsFrom 0)

/-! ## The switch tier (R143) -/

/-- A context of a device, for the rules that ask which device an access comes from. -/
def deviceCtx (d : Nat) : CtxRef := ⟨.thread d 0 0, 0⟩

/-- The stream fault of a tier access that completes with tier-loss or tier-stale (R143). -/
def tierFault (c : Nat) : Nat := if c = 27 then 21 else 20

/-- The target of a tier address for an engine of a device, or the stream fault (R143, R285). A request to a switch that has
failed without a notice goes out unanswered (R287). -/
def State.tierTarget (s : State) (d : Nat) (space : BitVec 16) (va : Word) : Except Nat Target :=
  match s.classifyAt (.thread d 0 0) (.thread d 0 0) d va with
  | .tier k inc off =>
    match s.tierRoute (deviceCtx d) k off with
    | .stop c => .error (tierFault c)
    | .go c mir =>
      let x : Target := .tier (match c with
          | .switch p _ => p
          | _ => k) mir off
      match s.tierCheck space k inc off with
      | some c => if s.deadBank (deviceCtx d) k off then .ok x else .error (tierFault c)
      | none => .ok x
  | _ => .error 19

/-- Whether the switch that serves a tier address for a device has failed, and the device holds no notice of it: no reply of it is
accepted (R287). -/
def State.tierSilent (s : State) (d : Nat) (va : Word) : Bool := s.silent (deviceCtx d) va

/-- The stream fault of a tier load whose reply can come no more: its device holds the notice of the loss (R277). -/
def State.tierLost (s : State) (d : Nat) (va : Word) : Option Nat :=
  match s.classifyAt (.thread d 0 0) (.thread d 0 0) d va with
  | .tier k _ off =>
    match s.tierRoute (deviceCtx d) k off with
    | .stop c => some (tierFault c)
    | .go _ _ => none
  | _ => none

/-- Checks the first and the last unit of a tier range; one that runs past the 2^38 bytes of its switch leaves its address space
(Table 1 of R119). -/
def tierRange (s : State) (v : Job) (va n : Nat) (k : Issued) : Issued :=
  if (match s.classifyAt (.thread v.part.dev 0 0) (.thread v.part.dev 0 0) v.part.dev (toWord va) with
      | .tier _ _ off => decide (2 ^ 38 < off + n)
      | _ => false) then .error (8, 0)
  else
  match s.tierTarget v.part.dev v.space (toWord va), s.tierTarget v.part.dev v.space (toWord (va + n - 64)) with
  | .error c, _ => .error (c, 0)
  | _, .error c => .error (c, 0)
  | .ok _, .ok _ => k

/-- L_T (R197). -/
def tierLatency : Nat := 1600

/-- The number under which a partition's reserved slots stand in a port's masks: its own, or its aligned group's (R291). -/
def State.maskKey (s : State) (k : PartRef) : Nat :=
  match (s.part k).group with
  | some g => 8 + g
  | none => k.k

/-- The reserved slots of a frame by a mask of 63 bits for slots 1 to 63. -/
def reservedSlots (mask : Nat) : List Nat := (List.range 64).filter fun i => i != 0 && bit mask (i - 1)

/-- Which of the reserved slots from the epoch on is the first at or after slot x. -/
def slotOrdinal (slots : List Nat) (x : Nat) : Nat :=
  x / 64 * slots.length + (slots.filter fun i => decide (i < x % 64)).length

/-- The number, counted from the epoch, of the n-th reserved slot. -/
def reservedSlot (slots : List Nat) (n : Nat) : Nat :=
  n / slots.length * 64 + (slots[n % slots.length]?).getD 0

/-- The wall cycle in which slot x from the epoch begins: 64 slots in 38.4 cycles (R290). -/
def State.slotCycle (s : State) (x : Nat) : Nat := s.epoch + ceilDiv (3 * x) 5

/-- The first slot that begins at or after a wall cycle. -/
def State.slotFrom (s : State) (t : Nat) : Nat := if t ≤ s.epoch then 0 else 5 * (t - s.epoch - 1) / 3 + 1

/-- The port by which an engine's read of a tier address travels: the pointer's switch, or the primary of its pair (R292). -/
def State.tierPort (s : State) (d : Nat) (space : BitVec 16) (va : Word) : Nat :=
  match s.tierTarget d space va with
  | .ok (.tier k _ _) => k
  | _ => 0

/-- The wall cycle in which the control flit that follows the frame of slot x arrives: its tag lets the frame's timed flits land
(R291, R299). [log 109] -/
def State.frameEnd (s : State) (x : Nat) : Nat := s.slotCycle ((x / 64 + 1) * 64)

/-- A tier read has been issued (R292): with reserved slots its request leaves in the first outbound one, and its units return
in the first inbound ones at or after the issue + 600 that no earlier read takes; without them it is of packet class, its
requests going out as those of any load. [log 93] -/
def State.startTierRead (s : State) (v : Job) (id : Nat) : State :=
  let p := s.sf.pipe
  match (s.pipe p).ops.get? id with
  | none => s
  | some op =>
    let k := s.tierPort v.part.dev v.space (((op.units[0]?).map fun u => u.addr).getD 0)
    let q := s.port v.part.dev k
    let key := s.maskKey v.part
    let ins := reservedSlots ((q.maskIn.get? key).getD 0)
    let outs := reservedSlots ((q.maskOut.get? key).getD 0)
    if ins = [] then s.modPipe p fun w => { w with ops := w.ops.put id { op with plan := requestsFrom 0 } }
    else
      let leaves := if outs = [] then s.wcc else
        s.slotCycle (reservedSlot outs (slotOrdinal outs (s.slotFrom s.wcc)))
      let first := slotOrdinal ins (Nat.max (s.slotFrom (s.wcc + 600)) ((q.nextIn.get? key).getD 0))
      let units := op.units.zipIdx.map fun u => { u.1 with due := some (s.frameEnd (reservedSlot ins (first + u.2))) }
      let s1 := s.modPort v.part.dev k fun q =>
        { q with nextIn := q.nextIn.put key (reservedSlot ins (first + op.units.length - 1) + 1) }
      let s2 := s1.modPipe p fun w => { w with ops := w.ops.put id { op with units := units } }
      units.zipIdx.foldl (fun st u =>
        let last := (u.1.due.getD leaves) - leaves
        let (n, st) := st.pick (last + 1)
        st.dueAt (leaves + n) .loadLanding (.op p id u.2)) s2

/-- Starts a tier load (R143, R292). -/
def State.startTierLoad (s : State) (j : Nat) (v : Job) (i : Instr) (l : List Word) (interval tag : Nat) (dest : Buf)
    (units : List LoadUnit) : Issued :=
  match s.startLoad j v i l interval tierLatency tag dest units [] with
  | .error e => .error e
  | .ok (n, s1) => .ok (n, s1.startTierRead v (s1.serial - 1))

/-- TFW (R143). -/
def execTfw (n : BitVec 4) (s : State) : Out :=
  launch s (.tfw n) 3 fun j v l s =>
    let len := arg l 0
    let off := arg l 1
    let va := arg l 2
    geometry (lines64 [len, off, va] && decide (64 ≤ len) && decide (len ≤ 0x180000)) <|
      inBuffer .w off len <| tierRange s v va len <|
        s.startTierLoad j v (.tfw n) l (len / 64) n.toNat .w (unitsOf va off len)

/-- TFA (R143). -/
def execTfa (n : BitVec 4) (s : State) : Out :=
  launch s (.tfa n) 4 fun j v l s =>
    rowOperands s v l fun va b rows sh =>
      tierRange s v va (rows * b) <|
        s.startTierLoad j v (.tfa n) l (rows * b / 64) n.toNat .a (rowUnits va b rows sh)

/-! ## GTA (R144) and FILLC (R149) -/

/-- GTA (R144): n, list, j and base are popped in that order. The list is read in the issue cycle; its units follow from
it. -/
def execGta (n : BitVec 4) (s : State) : Out :=
  launch s (.gta n) 4 fun j v l s =>
    match v.shape (arg l 2) with
    | none => .error (7, 0)
    | some sh =>
      let list := arg l 1
      geometry (sh.buf == .a && lines64 [sh.stride, sh.base, arg l 3] && list % 4 == 0) <|
        match s.rowCount s.sf.pipe (arg l 2) (arg l 0) sh with
        | .error e => .error e
        | .ok rows =>
          geometry (decide (1 ≤ rows) && decide (rows ≤ 4096)) <| inBuffer .a list (4 * rows) <|
            let plan : List Planned :=
              [⟨0, .read s.sf.pipe .a list (4 * rows) 0 false⟩, ⟨0, .complete 0⟩]
            s.startLoad j v (.gta n) l (rows * (sh.stride / 64)) v.latA n.toNat .a
              (rowUnits 0 sh.stride rows sh) plan

/-- FILLC (R149): n, dst and addr are popped in that order. -/
def execFillc (n : BitVec 4) (s : State) : Out :=
  launch s (.fillc n) 3 fun j v l s =>
    let k := arg l 0
    let dst := arg l 1
    let va := arg l 2
    geometry (dst % 32 == 0 && va % 32 == 0 && decide (1 ≤ k) && decide (k ≤ 131072)) <| inBuffer .c dst (32 * k) <|
      engineRange s v .read va (32 * k) fun s =>
        s.startLoad j v (.fillc n) l (ceilDiv k 2) v.latA n.toNat .c (unitsOf va dst (32 * k)) (requestsFrom 0)

/-! ## PFW and PFA (R142) -/

/-- A peer fetch: the cluster read, the first source byte in it, and the limits that remain. With .far, source bits above the
cluster's number are held to be zero too: bad-geometry. [log 88] -/
def peerFetch (s : State) (i : Instr) (b : Buf) (far : BitVec 1) : Out :=
  launch s i 4 fun j v l s =>
    native v <|
      let p := s.sf.pipe
      let len := arg l 0
      let dst := arg l 1
      let mask := arg l 2
      let src := arg l 3
      let own := p.p / 24
      let cl := if far = 1 then wbits (toWord src) 32 8 else own
      let at_ := src % 2 ^ 32
      let q0 := at_ / 0x180000
      let q1 := (at_ + len - 1) / 0x180000
      let inJob (q : Nat) : Bool := v.pipes.contains q
      let dests := (List.range 24).filter fun q => bit mask q
      geometry (lines64 [len, dst, at_] && decide (0 < len) && decide (len ≤ 0x180000) && decide (src < (if far = 1 then 2 ^ 40 else 2 ^ 32))
          && !(far = 1 && cl == own) && decide (cl < 8) && decide (q1 < 24) && mask != 0 && decide (mask < 2 ^ 24)
          && ((List.range 24).filter fun q => decide (q0 ≤ q) && decide (q ≤ q1)).all (fun q => inJob (cl * 24 + q))
          && dests.all (fun q => inJob (own * 24 + q))) <| inBuffer b dst len <|
        let interval := len / 64 + (q1 - q0)
        let dist := if far = 1 then 39 else 11
        let reads : List Planned := (List.range (len / 64)).map fun k =>
          let o := at_ + 64 * k
          let q := o / 0x180000
          ⟨k + (q - q0), .read ⟨p.dev, cl * 24 + q⟩ b (o % 0x180000) 64 (64 * k) false⟩
        let op := { s.newOp j v i l interval with plan := reads ++ [⟨interval + dist, .complete 0⟩] }
        s.startOp j v op [] (dests.map fun q => ⟨⟨p.dev, own * 24 + q⟩, b, dst, len⟩)

/-- PFW (R142): len, dst, mask and src are popped in that order. -/
def execPfw (f : BitVec 1) (s : State) : Out := peerFetch s (.pfw f) .w f
/-- PFA (R142). -/
def execPfa (f : BitVec 1) (s : State) : Out := peerFetch s (.pfa f) .a f

/-! ## Landings and deadlines (R140, R141, R191, R198) -/

/-- Replaces an operation of a pipe. -/
def State.putOp (s : State) (p : PipeRef) (id : Nat) (op : Op) : State :=
  s.modPipe p fun w => { w with ops := w.ops.put id op }

/-- Bytes of a unit, from one on, read now; a stream fault where its translation or its switch fails. -/
def State.unitBytes (s : State) (op : Op) (v : Job) (u : LoadUnit) (from_ n : Nat) : Except Nat (List Byte) :=
  let d := v.part.dev
  match op.word with
  | .tfw _ | .tfa _ =>
    match s.tierTarget d v.space u.addr with
    | .error c => .error c
    | .ok t => .ok (((s.targetGet t u.len).drop from_).take n)
  | _ =>
    match s.engineFault d v.space .read (u.addr.toNat + from_) (pagesOf (u.addr.toNat + from_) n) with
    | some c => .error c
    | none => .ok ((s.virtGet d v.space 1 (u.addr.toNat + from_) n).getD [])

/-- Whether an operation loads from the switch tier. -/
def Op.ofTier (op : Op) : Bool :=
  match op.word with
  | .tfw _ | .tfa _ => true
  | _ => false

/-- Whether a line of a unit moves under an interleave change (R313). -/
def State.unitMoves (s : State) (op : Op) (v : Job) (u : LoadUnit) : Bool :=
  !op.ofTier && s.linesMove v.part.dev v.space .read 1 u.addr.toNat u.len

/-- The request of a unit reads, at the slices or in the switch, the words it has not read yet, or some of them (R256, R271). A
unit with a reserved slot reads them at once, and lands in its slot. -/
def State.readUnit (s : State) (p : PipeRef) (id i : Nat) (op : Op) (v : Job) (u : LoadUnit) : Except Nat State :=
  let left := u.len - u.got.length
  let (k, s1) := s.pick (ceilDiv left 8)
  let n := if u.due.isSome then left else left - 8 * k
  match s1.unitBytes op v u u.got.length n with
  | .error c => .error c
  | .ok bs =>
    let s2 := s1.modPipe p fun w =>
      { w with ops := w.ops.put id { op with units := op.units.set i { u with got := u.got ++ bs } } }
    .ok (match u.due with
      | some t => s2.dueAt (Nat.max t s.wcc) .loadLanding (.op p id i)
      | none => s2.later .loadLanding (.op p id i))

/-- Writes bytes to a buffer of a pipe. -/
def State.bufSet (s : State) (p : PipeRef) (b : Buf) (off : Nat) (bs : List Byte) : State :=
  match b with
  | .w => s.wSet p off bs
  | .a => s.aSet p off bs
  | .c => s.cSet p off bs

/-- A load whose last unit has landed releases the holds that wait for it. -/
def State.loadDone (s : State) (p : PipeRef) (id : Nat) : State :=
  match (s.pipe p).ops.get? id with
  | some op => if op.landed then s.releaseHolds fun h => h.cause == .await p id else s
  | none => s

/-- The units of a gather, by the list that it has read (R144). -/
def Op.gatherUnits (op : Op) (sh : ShapeRecord) : List LoadUnit :=
  ((List.range (op.interval / (sh.stride / 64))).map fun r =>
    unitsOf (arg op.args 3 + op.bytes.num (4 * r) 4 * sh.stride) (sh.base + r * sh.stride) sh.stride).flatten

/-- A load fails: the fault freezes its job, and nothing of it lands any more (R138, R143). -/
def State.failLoad (s : State) (p : PipeRef) (id : Nat) (op : Op) (v : Job) (c : Nat) : State :=
  let s1 := s.putOp p id { op with units := op.units.map (fun x => { x with landed := true }), plan := [] }
  (s1.raiseAt op.job v ⟨p, op.eng⟩ c 0).loadDone p id

/-- LOAD_LANDING (R140, R198, R271, R336): the request of a unit reads its bytes; the unit lands in a bank cycle that no
scheduled access claims; a peer fetch completes; a gather's list has been read. -/
def execLoadLanding (s : State) : Out :=
  match s.ev with
  | .op p id u =>
    match (s.pipe p).ops.get? id with
    | none => .next s
    | some op =>
      match s.jobs.get? op.job with
      | none => .next s
      | some v =>
        let again := s.dueAt (s.wcc + 1) .loadLanding (.op p id u)
        let fail (c : Nat) : Out := .next (s.failLoad p id op v c)
        match op.word with
        | .pfw _ | .pfa _ =>
          let b := if (match op.word with
              | .pfw _ => true
              | _ => false) then Buf.w else .a
          let bs := op.bytes.getBytes 0 (arg op.args 0)
          let dests := (List.range 24).filter fun q => bit (arg op.args 2) q
          let s1 := s.putOp p id (op.completed u)
          .next (dests.foldl (fun st q => st.bufSet ⟨p.dev, p.p / 24 * 24 + q⟩ b (arg op.args 1) bs) s1)
        | _ =>
          if op.plan.any fun y => y.act == .complete u then
            let units := op.gatherUnits ((v.shape (arg op.args 2)).getD ⟨.a, 0, 0, 0, 0⟩)
            match units.findSome? fun x => s.engineFault v.part.dev v.space .read x.addr.toNat 1 with
            | some c => fail c
            | none => .next (s.putOp p id { op with units := units, plan := requestsFrom 1 })
          else
            match op.units[u]? with
            | none => .next s
            | some x =>
              if x.landed then .next s
              else if op.ofTier && s.tierSilent v.part.dev x.addr then .next again
              else if x.got.length < x.len then
                if s.unitMoves op v x then .next again
                else
                  match s.readUnit p id u op v x with
                  | .error c => fail c
                  | .ok s1 => .next s1
              else if s.bankWaits op.job p op.dest x.off x.len || !s.bankFree p op.dest x.off then .next again
              else
                let s1 := (s.bufSet p op.dest x.off x.got).useBank p op.dest x.off
                .next ((s1.putOp p id { op with units := op.units.set u { x with got := [], landed := true } }).loadDone p id)
  | _ => .next s

/-- Whether an untagged load is late now (R141). -/
def State.loadLate (s : State) (p : PipeRef) (op : Op) : Bool :=
  match s.jobs.get? op.job with
  | none => false
  | some v =>
    v.state == .running && !(s.part v.part).held && op.tag == 0 && !op.landed && !op.awaited
      && decide (op.deadline ≤ s.clock v p)

/-- LOAD_DEADLINE (R141): an untagged load that has not completed at its deadline raises late-load. -/
def execLoadDeadline (s : State) : Out :=
  match s.ev with
  | .op p id _ =>
    match (s.pipe p).ops.get? id with
    | none => .next s
    | some op =>
      match s.jobs.get? op.job with
      | none => .next s
      | some v =>
        if s.loadLate p op then
          .next ((s.putOp p id { op with awaited := true }).raiseAt op.job v ⟨p, op.eng⟩ 18 0)
        else .next s
  | _ => .next s

end Sys2Proof.Machine
end

