-- ==== Sys2Proof/Machine/CopyWords.lean ====
section
/-! DEFINITION. Copy-engine words (R145 to R149, R364): CPAA, CPAH, CPRS, CPRH, TOPR, TOPC, SPILL; their writes. -/

namespace Sys2Proof.Machine

/-- The reads of the slots that elements [e, e + n) of a list of slots from C offset `src` occupy: one act for each unit of
1 KiB that they meet; captured slots are keyed by element. -/
def slotReads (p : PipeRef) (src e n cycle : Nat) (sched : Bool) : List Planned :=
  let lo := src + 32 * e
  let hi := lo + 32 * n
  (List.range (if n = 0 then 0 else (hi - 1) / 1024 - lo / 1024 + 1)).map fun k =>
    let a := Nat.max lo ((lo / 1024 + k) * 1024)
    let b := Nat.min hi ((lo / 1024 + k + 1) * 1024)
    ⟨cycle, .read p .c a (b - a) (e + (a - lo) / 32) sched⟩

/-- The slot reads of a CPE operation (R145): element i in cycle ⌊i ÷ 128⌋. -/
def cpeReads (p : PipeRef) (src n : Nat) : List Planned :=
  ((List.range (ceilDiv n 128)).map fun j => slotReads p src (128 * j) (Nat.min 128 (n - 128 * j)) j true).flatten

/-- The claims of the lines that [off, off + n) of A meets, and the completion of unit i, in a cycle. -/
def lineWrites (off n i cycle : Nat) : List Planned :=
  (List.range (if n = 0 then 0 else (off + n - 1) / 64 - off / 64 + 1)).map (fun k =>
    (⟨cycle, .claim .a ((off / 64 + k) * 64) i⟩ : Planned)) ++ [⟨cycle, .complete i⟩]

/-- CPAA (R146): len, dst and src are popped in that order. -/
def execCpaa (s : State) : Out :=
  launch s .cpaa 3 fun j v l s =>
    let len := arg l 0
    let dst := arg l 1
    let src := arg l 2
    geometry (lines64 [len, dst, src] && decide (0 < len) && decide (len ≤ 0x180000) && !rangesOverlap src len dst len) <|
      inBuffer .a src len <| inBuffer .a dst len <|
        let p := s.sf.pipe
        let plan := ((List.range (len / 64)).map fun k =>
          (⟨k, .read p .a (src + 64 * k) 64 (64 * k) true⟩ : Planned) :: lineWrites (dst + 64 * k) 64 k (k + 2)).flatten
        s.startOp j v { s.newOp j v .cpaa l (len / 64) with plan := plan } [] [⟨p, .a, dst, len⟩]

/-- CPAH (R146): len, addr and src are popped in that order. -/
def execCpah (s : State) : Out :=
  launch s .cpah 3 fun j v l s =>
    let len := arg l 0
    let va := arg l 1
    let src := arg l 2
    geometry (lines64 [len, va, src] && decide (0 < len) && decide (len ≤ 0x180000)) <| inBuffer .a src len <|
      engineRange s v .write va len fun s =>
        let plan := ((List.range (len / 64)).map fun k =>
          ([⟨k, .read s.sf.pipe .a (src + 64 * k) 64 (64 * k) true⟩, ⟨k, .complete k⟩] : List Planned)).flatten
        s.startOp j v { s.newOp j v .cpah l (len / 64) with plan := plan } [] []

/-- Element size of a resolve target (Table 4 of R147). -/
def targetSize (f : BitVec 5) (i : BitVec 1) : Nat :=
  if i = 1 then 4
  else
    match f.toNat with
    | 1 => 4
    | 14 => 1
    | _ => 2

/-- Whether a resolve target is an integer format, which takes a requant word. -/
def targetInt (f : BitVec 5) (i : BitVec 1) : Bool := i == 1 || f.toNat == 13 || f.toNat == 14

/-- Whether a requant word keeps its limits: a shift of at most `most`, [31:7] zero (R147, R175). -/
def requantOk (q most : Nat) : Bool := decide (q % 2 ^ 7 ≤ most) && q / 2 ^ 7 % 2 ^ 25 == 0

/-- The float format that a resolve target names. -/
def targetFloat (f : BitVec 5) : FloatFmt :=
  match f.toNat with
  | 1 => f32
  | 2 => f16
  | _ => bf16

/-- A slot resolved to a target's pattern (R147, R223, R224). -/
def resolveSlot (f : BitVec 5) (i : BitVec 1) (q : Word) (rnd irnd : Nat) (k : Slot) : Nat :=
  if targetInt f i then
    let bits := 8 * targetSize f i
    ((k.resolveInt (wbits q 0 7) (signed 32 (wbits q 32 32)) irnd bits) % 2 ^ bits).toNat
  else k.resolveFloat (targetFloat f) rnd

/-- The operands of a resolve: n, destination, source, and the requant word (R147). -/
structure ResolveArgs where
  n : Nat
  dst : Nat
  src : Nat
  q : Word
  deriving DecidableEq, Repr

/-- CPRS and CPRH (R147): n, the destination, src and q are popped in that order. -/
def resolveLaunch (s : State) (w : Instr) (f : BitVec 5) (i : BitVec 1) (k : Nat → Job → List Word → ResolveArgs → State → Issued) :
    Out :=
  launch s w (if targetInt f i then 4 else 3) fun j v l s =>
    let a : ResolveArgs := ⟨arg l 0, arg l 1, arg l 2, (l[3]?).getD 0⟩
    geometry (decide (1 ≤ a.n) && decide (a.n ≤ 131072) && a.src % 32 == 0 && a.dst % targetSize f i == 0
        && requantOk a.q.toNat 95) <| inBuffer .c a.src (32 * a.n) (k j v l a s)

/-- CPRS (R147, R364): results of slots 128j to 128j + 127 complete in issue + j + 6. -/
def execCprs (f : BitVec 5) (i : BitVec 1) (s : State) : Out :=
  resolveLaunch s (.cprs f i) f i fun j v l a s =>
    let z := targetSize f i
    let p := s.sf.pipe
    inBuffer .a a.dst (a.n * z) <|
      let groups := ceilDiv a.n 128
      let writes := ((List.range groups).map fun g =>
        lineWrites (a.dst + 128 * z * g) (z * Nat.min 128 (a.n - 128 * g)) g (g + 6)).flatten
      s.startOp j v { s.newOp j v (.cprs f i) l groups with plan := cpeReads p a.src a.n ++ writes } []
        [⟨p, .a, a.dst, a.n * z⟩]

/-- CPRH (R147). -/
def execCprh (f : BitVec 5) (i : BitVec 1) (s : State) : Out :=
  resolveLaunch s (.cprh f i) f i fun j v l a s =>
    engineRange s v .write a.dst (a.n * targetSize f i) fun s =>
      let groups := ceilDiv a.n 128
      let plan := cpeReads s.sf.pipe a.src a.n ++ (List.range groups).map fun g => (⟨g, .complete g⟩ : Planned)
      s.startOp j v { s.newOp j v (.cprh f i) l groups with plan := plan } [] []

/-- SPILL (R149): n, addr and src are popped in that order. -/
def execSpill (s : State) : Out :=
  launch s .spill 3 fun j v l s =>
    let n := arg l 0
    let va := arg l 1
    let src := arg l 2
    geometry (src % 32 == 0 && va % 32 == 0 && decide (1 ≤ n) && decide (n ≤ 131072)) <| inBuffer .c src (32 * n) <|
      engineRange s v .write va (32 * n) fun s =>
        let plan := cpeReads s.sf.pipe src n ++ (List.range (ceilDiv n 128)).map fun g => (⟨g, .complete g⟩ : Planned)
        s.startOp j v { s.newOp j v .spill l (ceilDiv n 2) with plan := plan } [] []

/-! ## Selection (R148) -/

/-- The default NaN and the element size of a selection's format. -/
def FloatFmt.bytes (f : FloatFmt) : Nat := (f.signBit + 1) / 8

/-- Whether pattern a at index i ranks above pattern b at index k: the greater value, then the lower index. -/
def ranksAbove (f : FloatFmt) (a : Nat × Nat) (b : Nat × Nat) : Bool :=
  let x := f.value a.2
  let y := f.value b.2
  if y.lt x then true else if x.lt y then false else decide (a.1 < b.1)

/-- Inserts a candidate into a ranked list. -/
def insertRanked (f : FloatFmt) (a : Nat × Nat) : List (Nat × Nat) → List (Nat × Nat)
  | [] => [a]
  | b :: l => if ranksAbove f a b then a :: b :: l else b :: insertRanked f a l

/-- The k greatest of a group, as (index, pattern), and whether it held a NaN; free ranks hold the default NaN and
0xFFFF_FFFF. -/
def selectTop (f : FloatFmt) (k : Nat) (vs : List Nat) : List (Nat × Nat) × Bool :=
  let items := vs.zipIdx.map fun x => (x.2, x.1)
  let real := items.filter fun x => !f.isNan x.2
  let ranked := (real.foldl (fun l x => insertRanked f x l) []).take k
  (ranked ++ List.replicate (k - ranked.length) (0xFFFFFFFF, f.nan), items.any fun x => f.isNan x.2)

/-- The output of a selection over G groups (R148): values, indices, flags. -/
def selectionBytes (f : FloatFmt) (k : Nat) (groups : List (List Nat)) : List Byte :=
  let rs := groups.map fun g => selectTop f k g
  (rs.map fun r => (r.1.map fun x => leBytes f.bytes x.2).flatten).flatten
    ++ (rs.map fun r => (r.1.map fun x => leBytes 4 x.1).flatten).flatten
    ++ (rs.map fun r => leBytes 4 (if r.2 then 1 else 0)).flatten

/-- TOPR and TOPC (R148, R364): k, m, r, cbase and dst are popped in that order. -/
def topLaunch (s : State) (w : Instr) (f : BitVec 5) (rows : Bool) : Out :=
  launch s w 5 fun j v l s =>
    let k := arg l 0
    let m := arg l 1
    let r := arg l 2
    let cbase := arg l 3
    let dst := arg l 4
    let n := r * m
    let g := if rows then r else m
    let z := (targetFloat f).bytes
    let out := g * k * (z + 4) + 4 * g
    geometry (decide (1 ≤ k) && decide (k ≤ 64) && decide (k ≤ (if rows then m else r)) && decide (1 ≤ n)
        && decide (n ≤ 65536) && cbase % 32 == 0 && dst % 64 == 0) <| inBuffer .c cbase (32 * n) <| inBuffer .a dst out <|
      let p := s.sf.pipe
      let interval := ceilDiv n 128 + k
      let lines := ceilDiv out 64
      let groups := ceilDiv lines 32
      let writes := ((List.range groups).map fun i =>
        lineWrites (dst + 2048 * i) (Nat.min 2048 (64 * (lines - 32 * i))) i (interval + 6 - groups + i)).flatten
      s.startOp j v { s.newOp j v w l interval with plan := cpeReads p cbase n ++ writes } [] [⟨p, .a, dst, out⟩]

/-- TOPR (R148). -/
def execTopr (f : BitVec 5) (s : State) : Out := topLaunch s (.topr f) f true
/-- TOPC (R148). -/
def execTopc (f : BitVec 5) (s : State) : Out := topLaunch s (.topc f) f false

/-! ## Writes (R145, R123, R364) -/

/-- The captured slots of elements [e, e + n). -/
def Op.slotList (op : Op) (e n : Nat) : List Slot :=
  (List.range n).map fun k => (op.slots.get? (e + k)).getD Slot.zero

/-- The patterns of a resolve's elements [e, e + n), as bytes. -/
def Op.resolved (op : Op) (f : BitVec 5) (i : BitVec 1) (e n : Nat) : List Byte :=
  let q := (op.args[3]?).getD 0
  ((op.slotList e n).map fun k => leBytes (targetSize f i) (resolveSlot f i q op.rnd op.irnd k)).flatten

/-- The output of a selection. -/
def Op.selection (op : Op) (f : BitVec 5) (rows : Bool) : List Byte :=
  let m := arg op.args 1
  let r := arg op.args 2
  let vs := (op.slotList 0 (r * m)).map fun k => k.resolveFloat (targetFloat f) op.rnd
  let groups := if rows then (List.range r).map fun i => (vs.drop (i * m)).take m
    else (List.range m).map fun c => (List.range r).map fun i => (vs[i * m + c]?).getD 0
  selectionBytes (targetFloat f) (arg op.args 0) groups

/-- What unit i of a CPE operation writes: to A at an offset, or to device memory at an address. -/
def Op.cpeUnit (op : Op) (i : Nat) : Bool × Nat × List Byte :=
  let group (n : Nat) : Nat := Nat.min 128 (n - 128 * i)
  match op.word with
  | .cpaa => (true, arg op.args 1 + 64 * i, op.bytes.getBytes (64 * i) 64)
  | .cpah => (false, arg op.args 1 + 64 * i, op.bytes.getBytes (64 * i) 64)
  | .cprs f t => (true, arg op.args 1 + 128 * targetSize f t * i, op.resolved f t (128 * i) (group (arg op.args 0)))
  | .cprh f t => (false, arg op.args 1 + 128 * targetSize f t * i, op.resolved f t (128 * i) (group (arg op.args 0)))
  | .spill => (false, arg op.args 1 + 4096 * i,
      ((op.slotList (128 * i) (group (arg op.args 0))).map fun k => leBytes 32 k.raw).flatten)
  | .topr f => (true, arg op.args 4 + 2048 * i, ((op.selection f true).drop (2048 * i)).take 2048)
  | .topc f => (true, arg op.args 4 + 2048 * i, ((op.selection f false).drop (2048 * i)).take 2048)
  | _ => (true, 0, [])

/-- Stores bytes at virtual addresses for an engine, page by page; the stream fault where translation fails. -/
def State.engineStore (s : State) (d : Nat) (space : BitVec 16) : Nat → Nat → List Byte → Except Nat State
  | 0, _, _ => .ok s
  | k + 1, va, bs =>
    if bs = [] then .ok s
    else
      let n := Nat.min ((va / 65536 + 1) * 65536 - va) bs.length
      match s.translate d space va .write 1 false with
      | .error c => .error (streamCause c)
      | .ok pa => (s.dramSet d pa (bs.take n)).engineStore d space k (va + n) (bs.drop n)

/-- Cuts the bytes of a write at words of the memory's choosing: the parts need not be performed together (R256). -/
def State.cutWrite (s : State) : Nat → Nat → List Byte → List (Nat × List Byte) × State
  | 0, va, bs => ([(va, bs)], s)
  | f + 1, va, bs =>
    let (k, s1) := s.pick (ceilDiv bs.length 8)
    let n := bs.length - 8 * k - (va + bs.length) % 8
    if k = 0 ∨ n = 0 then ([(va, bs)], s1)
    else
      let (r, s2) := s1.cutWrite f (va + n) (bs.drop n)
      ((va, bs.take n) :: r, s2)

/-- CPE_WRITE_PERFORMED: unit u of an operation completes in A, or its write leaves for the home slice; and, from 2^32 on, the
write numbered u − 2^32 is performed there, within L_W and in the order that RDV requires (R123, R145). -/
def execCpeWritePerformed (s : State) : Out :=
  match s.ev with
  | .op p id u =>
    match (s.pipe p).ops.get? id with
    | none => .next s
    | some op =>
      match s.jobs.get? op.job with
      | none => .next s
      | some v =>
        if u < 2 ^ 32 then
          let (inA, at_, bs) := op.cpeUnit u
          let s1 := s.putOp p id (op.completed u)
          if inA then .next (s1.aSet p at_ bs)
          else
            let (parts, s2) := s1.cutWrite bs.length at_ bs
            let ws := parts.zipIdx.map fun x => (1024 * u + x.2, toWord x.1.1, x.1.2)
            let s3 := s2.putOp p id { op.completed u with writes := op.writes ++ ws }
            .next (ws.foldl (fun st w => st.within v.latW .cpeWritePerformed (.op p id (2 ^ 32 + w.1))) s3)
        else
          match op.writes.find? fun w => w.1 == u - 2 ^ 32 with
          | none => .next s
          | some (n, va, bs) =>
            let waits := v.milestones.any fun m => decide (m.1 < op.issue)
            if waits || s.storeMoves v.part.dev v.space 1 va.toNat bs.length then
              .next (s.dueAt (s.wcc + 1) .cpeWritePerformed (.op p id u))
            else
              let s1 := s.putOp p id { op with writes := op.writes.filter fun w => w.1 != n }
              match s1.engineStore v.part.dev v.space 2 va.toNat bs with
              | .ok s2 => .next s2
              | .error c => .next (s1.raiseAt op.job v ⟨p, op.eng⟩ c 0)
  | _ => .next s

/-- Whether an operation still has writes of device memory to perform. -/
def Op.writesLeft (op : Op) : Bool :=
  match op.word with
  | .cpah | .cprh _ _ | .spill => !op.plan.isEmpty || !op.writes.isEmpty
  | _ => false

/-- MILESTONE_STORE (R123): the next RDV store of a job, once every earlier write it follows has been performed, and its line
does not move (R313). The completion stamp of an operation's device-memory writes, which the spec gives no cycle of the plane
clock, is held to be its issue + its stretched interval. [log 90] -/
def execMilestoneStore (s : State) : Out :=
  match s.ev with
  | .jobWord j x =>
    match s.jobs.get? j with
    | none => .next s
    | some v =>
      match v.milestones with
      | [] => .next s
      | (stamp, _, w) :: rest =>
        let early := v.refs.any fun p => (s.pipe p).ops.any fun e =>
          e.2.job == j && e.2.writesLeft && decide (e.2.issue + e.2.interval + e.2.stretch ≤ stamp)
        if early ∨ s.storeMoves v.part.dev v.space 1 (v.rdv.toNat + 8) 8 then .next (s.dueAt (s.wcc + 1) .milestoneStore (.jobWord j x))
        else
          let s1 := s.modJob j fun v => { v with milestones := rest }
          .next ((s1.virtStore v.part.dev v.space 1 (v.rdv.toNat + 8) 8 w.toNat).getD s1)
  | _ => .next s

end Sys2Proof.Machine
end

