-- ==== Sys2Proof/Machine/Matrix.lean ====
section
/-! DEFINITION. The matrix engine's words (R152 to R162): MMA, MMAZ, DWA, DWAZ, and the completion of their rows. -/

namespace Sys2Proof.Machine

/-! ## The format word (R152 to R154) -/

/-- WF of a format word. -/
def fmtW (w : Word) : Nat := wbits w 59 5
/-- AF. -/
def fmtA (w : Word) : Nat := wbits w 54 5
/-- MODE. -/
def fmtMode (w : Word) : Nat := wbits w 52 2
/-- SBW: W takes block scales. -/
def fmtSbw (w : Word) : Bool := wbits w 47 1 == 1
/-- SBA. -/
def fmtSba (w : Word) : Bool := wbits w 46 1 == 1

/-- The rules of R153; `dw` for DWA and DWAZ. -/
def formatOk (w : Word) (dw : Bool) : Bool :=
  let wf := fmtW w
  let af := fmtA w
  let plain (c : Nat) : Bool := (decide (1 ≤ c) && decide (c ≤ 6)) || (decide (13 ≤ c) && decide (c ≤ 15))
  let code (c : Nat) : Bool := decide (1 ≤ c) && decide (c ≤ 20)
  code wf && code af && !isEc af
    && ((fmtMode w == 0 && isFloatCode wf && isFloatCode af) || (fmtMode w == 1 && decide (13 ≤ wf) && decide (13 ≤ af)))
    && (!fmtSbw w || (decide (4 ≤ wf) && decide (wf ≤ 12))) && (!fmtSba w || (decide (4 ≤ af) && decide (af ≤ 9)))
    && wbits w 0 14 == 0 && (!dw || (plain wf && plain af && !fmtSbw w && !fmtSba w))

/-- Whether a format is of the Nibble class (Table 3 of R154). -/
def isNibble (c : Nat) : Bool := c == 9 || decide (16 ≤ c)

/-- K of a class. -/
def classDepth (c : Nat) : Nat :=
  if c = 1 ∨ c = 13 ∨ c = 2 ∨ c = 3 then 128 else if isNibble c then 512 else 256

/-- cpr of a class. -/
def classTime (c : Nat) : Nat := if c = 1 ∨ c = 13 then 4 else 1

/-- Depth K of a pair of formats. -/
def pairDepth (w : Word) : Nat := Nat.min (classDepth (fmtW w)) (classDepth (fmtA w))

/-- Row time of a pair of formats. -/
def pairTime (w : Word) : Nat := Nat.max (classTime (fmtW w)) (classTime (fmtA w))

/-- Block size B of block scales. -/
def blockSize (c : Nat) : Nat := if isNibble c then 16 else 32

/-- Where captured bytes of a tile command stand: A rows, W elements, W scales, A scales. -/
def keyRow (i : Nat) : Nat := 2 ^ 32 + i * 4096
/-- The W tile. -/
def keyTile : Nat := 2 ^ 40
/-- The W block scales. -/
def keyScaleW : Nat := 2 ^ 41
/-- The A block scales. -/
def keyScaleA : Nat := 2 ^ 42

/-- Where scale memory begins in W (R139). -/
def scaleBase : Nat := 0x170000

/-! ## Reads and completions of a tile command (R158, R161) -/

/-- The acts that read [off, off + n) of a pipe's A line by line, keyed from `key`. -/
def lineActs (p : PipeRef) (off n key : Nat) : List Act :=
  (List.range (if n = 0 then 0 else (off + n - 1) / 64 - off / 64 + 1)).map fun k =>
    let a := Nat.max off ((off / 64 + k) * 64)
    let b := Nat.min (off + n) ((off / 64 + k + 1) * 64)
    .read p .a a (b - a) (key + (a - off)) true

/-- Reads lines over cycles from a first one, ⌈lines ÷ cpr⌉ in each (R158). -/
def spread (first cpr : Nat) (l : List Act) : List Planned :=
  let per := Nat.max 1 (ceilDiv l.length cpr)
  l.zipIdx.map fun x => ⟨first + x.2 / per, x.1⟩

/-- Spreads lines evenly over cpr cycles from a first one (R161). [log 94] -/
def spreadEvenly (first cpr : Nat) (l : List Act) : List Planned :=
  l.zipIdx.map fun x => ⟨first + x.2 * cpr / Nat.max 1 l.length, x.1⟩

/-- Row i completes in a cycle: it reads and writes its units of C (R158). -/
def rowWrite (c i cycle : Nat) : List Planned :=
  let lo := c + i * 4096
  (List.range ((lo + 4095) / 1024 - lo / 1024 + 1)).map (fun k =>
    (⟨cycle, .claim .c (Nat.max lo ((lo / 1024 + k) * 1024)) i⟩ : Planned)) ++ [⟨cycle, .complete i⟩]

/-- The reads of n tile bytes at an offset of a pipe's W, 512 in each cycle. -/
def tileReads (p : PipeRef) (off n : Nat) : List Planned :=
  (List.range (ceilDiv n 512)).map fun j =>
    ⟨j, .read p .w (off + 512 * j) (Nat.min 512 (n - 512 * j)) (keyTile + 512 * j) false⟩

/-- A tile command: pops its operands, then its format entry, which it checks (R153, R162); the entry is consumed. Too few operands
are found before an empty format queue. [log 89] -/
def tileLaunch (s : State) (i : Instr) (suffix : BitVec 5) (pops : Nat) (dw : Bool)
    (k : Nat → Job → List Word → FmtEntry → State → Issued) : Out :=
  launch s i pops fun j v l s =>
    match (s.pipe s.sf.pipe).fmtq with
    | [] => .error (11, 0)
    | e :: rest =>
      let s1 := s.modPipe s.sf.pipe fun p => { p with fmtq := rest }
      if !formatOk e.word dw then .ok (0, s1.raiseAt j v s.sf 12 0)
      else if suffix.toNat ≠ 0 ∧ suffix.toNat ≠ fmtW e.word then .ok (0, s1.raiseAt j v s.sf 13 0)
      else k j v l e s1

/-- Whether a command zeroes its slots first. -/
def zeroesFirst : Instr → Bool
  | .mmaz _ _ _ _ | .dwaz _ => true
  | _ => false

/-- Starts a tile command on c and m rows: the checks of c and the plan of its completions. An accumulating command reads the
slots that it completes into (R158, R193). -/
def startTile (s : State) (j : Nat) (v : Job) (i : Instr) (l : List Word) (e : FmtEntry) (m c interval : Nat)
    (done : Nat → Nat) (plan : List Planned) (ec : List Range) : Issued :=
  inBuffer .c c (m * 4096) <|
    let slots : List Range := [⟨s.sf.pipe, .c, c, m * 4096⟩]
    let writes := ((List.range m).map fun r => rowWrite c r (done r)).flatten
    let code := ((s.pipe s.sf.pipe).ctabs.get? (wbits e.word 48 4)).getD 0
    s.startOp j v { s.newOp j v i l interval with fmt := some e, code := code, rows := m, plan := plan ++ writes }
      (ec ++ if zeroesFirst i then [] else slots) slots

/-- The pipe and the offset that an A or W operand names: a cluster address when a peer is read (R142, R155). -/
def peerOperand (s : State) (v : Job) (peer : BitVec 1) (x : Nat) : Option (PipeRef × Nat) :=
  let p := s.sf.pipe
  if peer = 0 then some (p, x)
  else
    let q := p.p / 24 * 24 + x / 0x180000
    if v.compat ∨ 2 ^ 32 ≤ x ∨ 24 ≤ x / 0x180000 ∨ !v.pipes.contains q then none else some (⟨p.dev, q⟩, x % 0x180000)

/-! ## MMA and MMAZ (R155, R156, R158) -/

/-- The rows that m names: their number, the base that .row adds, and their stride; without .row the stride is ASTR's or
the packed row size (R155, R156). -/
def tileRows (s : State) (v : Job) (byShape : BitVec 1) (m : Word) (fw : Word) (rowBytes : Nat) :
    Except (Nat × Nat) (Nat × Nat × Nat) :=
  if byShape = 0 then
    let rs := wbits fw 14 12 * 64
    .ok (m.toNat, 0, if rs = 0 then rowBytes else rs)
  else if wbits m 48 16 ≠ 0 then .error (7, 0)
  else
    match v.shape (wbits m 32 16) with
    | none => .error (7, 0)
    | some sh =>
      if sh.buf ≠ .a ∨ sh.stride % 64 ≠ 0 then .error (7, 0)
      else (s.rowCount s.sf.pipe (wbits m 32 16) (wbits m 0 32) sh).map fun n => (n, sh.base, sh.stride)

/-- The plan of an MMA's reads (R156, R158). -/
def mmaReads (s : State) (e : FmtEntry) (pa pw : PipeRef) (a0 rs w m : Nat) : List Planned :=
  let fw := e.word
  let K := pairDepth fw
  let cpr := pairTime fw
  let wf := fmtW fw
  let af := fmtA fw
  let own := s.sf.pipe
  let rowBytes := K * elementBits af / 8
  let tile := if isEc wf then (List.range (K / 2)).map fun j => (⟨j, .ec pw w j⟩ : Planned)
    else tileReads pw w (K * 128 * elementBits wf / 8)
  let bw := blockSize wf
  let scalesW : List Planned := if !fmtSbw fw then [] else
    (List.range (K * 128 / bw)).map fun g =>
      ⟨if isEc wf then g * bw / 256 else g * bw * elementBits wf / 4096, .read own .w (scaleBase + wbits fw 36 10 * 64 + g) 1 (keyScaleW + g) false⟩
  let ba := blockSize af
  let rows := (List.range m).map fun i =>
    let acts := lineActs pa (a0 + i * rs) rowBytes (keyRow i)
    let per := Nat.max 1 (ceilDiv acts.length cpr)
    let scales : List Planned := if !fmtSba fw then [] else
      (List.range (K / ba)).map fun g =>
        ⟨i * cpr + ((a0 + i * rs) % 64 + g * ba * elementBits af / 8) / 64 / per,
          .read own .w (scaleBase + wbits fw 26 10 * 64 + i * (K / ba) + g) 1 (keyScaleA + i * (K / ba) + g) false⟩
    spread (i * cpr) cpr acts ++ scales
  tile ++ scalesW ++ rows.flatten

/-- MMA and MMAZ: c, w, a and m are popped in that order. A command that breaks several limits raises the first of: shape and
geometry, the A range, the W range, the scales, the C range; c + m × 4,096 above the buffer is buffer-range. [log 89] -/
def mmaLaunch (s : State) (i : Instr) (suffix : BitVec 5) (byShape pw pa : BitVec 1) : Out :=
  tileLaunch s i suffix 4 false fun j v l e s =>
    let c := arg l 0
    let w := arg l 1
    let a := arg l 2
    let fw := e.word
    let K := pairDepth fw
    let cpr := pairTime fw
    let wf := fmtW fw
    let rowBytes := K * elementBits (fmtA fw) / 8
    let tile := if isEc wf then 64 * (4 * K) else K * 128 * elementBits wf / 8
    let tw := if isEc wf then K / 2 else ceilDiv tile 512
    match tileRows s v byShape ((l[3]?).getD 0) fw rowBytes with
    | .error x => .error x
    | .ok (m, base, rs) =>
      match peerOperand s v pa a, peerOperand s v pw w with
      | some (pA, a1), some (pW, w1) =>
        let a0 := base + a1
        geometry (decide (1 ≤ m) && decide (m ≤ 1024) && a % 64 == 0 && w % 64 == 0 && c % 32 == 0) <|
          inBuffer .a a0 ((m - 1) * rs + rowBytes) <|
            if scaleBase < w1 + tile then .error (8, 0)
            else if (fmtSbw fw && decide (0x10000 < wbits fw 36 10 * 64 + K * 128 / blockSize wf))
                || (fmtSba fw && decide (0x10000 < wbits fw 26 10 * 64 + m * (K / blockSize (fmtA fw)))) then .error (8, 0)
            else
              let far := if pa = 1 ∨ pw = 1 then 12 else 0
              startTile s j v i l e m c (Nat.max tw (m * cpr) + far) (fun r => Nat.max tw ((r + 1) * cpr) + 9 + far)
                (mmaReads s e pA pW a0 rs w1 m) (if isEc wf then [⟨pW, .w, w1, tile⟩] else [])
      | _, _ => .error (7, 0)

/-- MMA (R155). -/
def execMma (x : BitVec 5) (r w a : BitVec 1) (s : State) : Out := mmaLaunch s (.mma x r w a) x r w a
/-- MMAZ (R155). -/
def execMmaz (x : BitVec 5) (r w a : BitVec 1) (s : State) : Out := mmaLaunch s (.mmaz x r w a) x r w a

/-! ## DWA and DWAZ (R159 to R161) -/

/-- The fields of a geometry word (Table 5), and the line-buffer position of an a operand. -/
structure WindowGeometry where
  rb : Nat
  nr : Nat
  rs : Nat
  px : Nat
  kw : Nat
  kh : Nat
  top : Nat
  x0 : Nat
  deriving DecidableEq, Repr

/-- Reads a geometry word and an a operand. -/
def windowGeometry (g a : Word) : WindowGeometry :=
  { rb := wbits g 42 16, nr := wbits g 34 8, rs := wbits g 18 16, px := wbits g 6 12, kw := wbits g 3 3 + 1,
    kh := wbits g 0 3 + 1, top := wbits a 32 8, x0 := wbits a 0 21 }

/-- The limits of Table 5 and of the a operand, for A elements of z bytes. -/
def windowOk (g a : Word) (z : Nat) : Bool :=
  let x := windowGeometry g a
  wbits g 58 6 == 0 && decide (x.rb ≤ 24575) && decide (1 ≤ x.rs) && decide (x.rs ≤ 24575) && decide (1 ≤ x.px)
    && wbits a 40 24 == 0 && wbits a 21 11 == 0 && x.x0 % z == 0 && (x.nr == 0 || decide (x.top < x.nr))

/-- The A offset of pixel column 0 in tap row ty (R160). -/
def WindowGeometry.tapRow (x : WindowGeometry) (ty : Nat) : Nat :=
  let row := if x.nr = 0 then x.top + ty else (x.top + ty) % x.nr
  x.rb * 64 + row * x.rs * 64 + x.x0

/-- Where the bytes of pixel column j of tap row ty are captured. -/
def keyColumn (j ty : Nat) : Nat := keyRow (j * 8 + ty)

/-- The plan of a DWA's reads (R161). -/
def dwaReads (p : PipeRef) (x : WindowGeometry) (cpr z w tile m : Nat) : List Planned :=
  let columns := (List.range (x.kw - 1 + m)).map fun j =>
    spreadEvenly (j * cpr) cpr ((List.range x.kh).map fun ty =>
      lineActs p (x.tapRow ty + j * x.px * 64) (128 * z) (keyColumn j ty)).flatten
  tileReads p w tile ++ columns.flatten

/-- DWA and DWAZ: g, c, w, a and m are popped in that order. -/
def dwaLaunch (s : State) (i : Instr) (suffix : BitVec 5) : Out :=
  tileLaunch s i suffix 5 true fun j v l e s =>
    let g := (l[0]?).getD 0
    let c := arg l 1
    let w := arg l 2
    let a := (l[3]?).getD 0
    let m := arg l 4
    let cpr := pairTime e.word
    let z := elementBits (fmtA e.word) / 8
    let x := windowGeometry g a
    let tile := x.kh * x.kw * 128 * (elementBits (fmtW e.word) / 8)
    let tw := ceilDiv tile 512
    let span := (x.kw + m - 2) * x.px * 64 + 128 * z
    geometry (decide (1 ≤ m) && decide (m ≤ 1024) && windowOk g a z && w % 64 == 0 && c % 32 == 0) <|
      if (List.range x.kh).any fun ty => decide (bufSize .a < x.tapRow ty + span) then .error (8, 0)
      else if scaleBase < w + tile then .error (8, 0)
      else
        startTile s j v i l e m c (Nat.max tw ((x.kw - 1 + m) * cpr)) (fun r => Nat.max tw ((x.kw + r) * cpr) + 9)
          (dwaReads s.sf.pipe x cpr z w tile m) []

/-- DWA (R159). -/
def execDwa (x : BitVec 5) (s : State) : Out := dwaLaunch s (.dwa x) x
/-- DWAZ (R159). -/
def execDwaz (x : BitVec 5) (s : State) : Out := dwaLaunch s (.dwaz x) x

/-! ## Accumulation (R157, R220, R221) -/

/-- The greatest power Eb that R220 names: the least E with every finite nonzero product below 2^E, clamped. -/
def leastExponent (ps : List FVal) : Option Int :=
  let es := ps.filterMap fun p => match p with
    | .fin _ m e => if m = 0 then none else some (floorLog m 1 e + 1)
    | _ => none
  match es with
  | [] => none
  | e :: l => some (max (-512) (min 511 (l.foldl max e)))

/-- floor(p ÷ 2^(A − 64)) of a finite product, and whether it is exact. -/
def flooredUnits (neg : Bool) (m : Nat) (e : Int) (anchor : Int) : Int × Bool :=
  let k := e + 64 - anchor
  let n := m * scaleUp k
  let d := scaleUp (-k)
  let v : Int := if neg then -(n : Int) else n
  (v.fdiv d, n % d == 0)

/-- One product into a slot of a fixed anchor (R157): flags, or its units. -/
def addProduct (anchor : Int) (k : Slot) (p : FVal) : Slot :=
  match p with
  | .nan => { k with n := true }
  | .inf neg => if neg then { k with mi := true } else { k with pi := true }
  | .fin neg m e =>
    if m = 0 then k
    else if anchor + 16 ≤ floorLog m 1 e then { k with v := true }
    else
      let (q, exact) := flooredUnits neg m e anchor
      { k with wv := k.wv + BitVec.ofInt 96 q, x := k.x || !exact }

/-- Whether a product is countable under an anchor. -/
def countable (anchor : Int) (p : FVal) : Bool :=
  match p with
  | .fin _ m e => m != 0 && decide (floorLog m 1 e < anchor + 16)
  | _ => false

/-- What a command does to one slot (R157): none where the headroom limit breaks. `tern` marks a reserved TERN element
among the factors (R211); `id` names the open sum vector (R219). -/
def accumulate (k : Slot) (zero integer tern : Bool) (anchorOf : Option Int) (ps : List FVal) (id : Nat) : Option Slot :=
  let k1 := if zero then Slot.zero else k
  let anchor : Int := match leastExponent ps with
    | some eb =>
      if k1.count = 0 then (if integer then 64 else anchorOf.getD eb) else k1.anchor.toInt
    | none => k1.anchor.toInt
  let cnt := (ps.filter (countable anchor)).length
  if 32768 < k1.count.toNat + cnt then none
  else
    let k2 := ps.foldl (addProduct anchor) k1
    some { k2 with
      anchor := BitVec.ofInt 10 anchor, count := k1.count + BitVec.ofNat 16 cnt, x := k2.x || tern,
      sum := if cnt = 0 then k1.sum else .inr id }

/-- The factor pairs of slot (i, n): patterns of A and W, the indices of their block scales. -/
def Op.factors (op : Op) (fw : Word) (i n : Nat) : List (Nat × Nat × Nat × Nat) :=
  let af := fmtA fw
  let wf := fmtW fw
  match op.word with
  | .dwa _ | .dwaz _ =>
    let x := windowGeometry ((op.args[0]?).getD 0) ((op.args[3]?).getD 0)
    let za := elementBits af / 8
    let zw := elementBits wf / 8
    ((List.range x.kh).map fun ty => (List.range x.kw).map fun tx =>
      (op.bytes.num (keyColumn (i + tx) ty + n * za) za,
        op.bytes.num (keyTile + ((ty * x.kw + tx) * 128 + n) * zw) zw, 0, 0)).flatten
  | _ =>
    let K := pairDepth fw
    let ba := blockSize af
    let bw := blockSize wf
    let row := op.bytes.getBytes (keyRow i) (K * elementBits af / 8)
    let wbytes := elementBits wf * K / 8
    let col := op.bytes.getBytes (keyTile + n * wbytes) wbytes
    (List.range K).map fun k =>
      (packedElement af row k,
        if isEc wf then (op.bytes.get (keyTile + n * K + k)).toNat else packedElement wf col k,
        i * (K / ba) + k / ba, n * (K / bw) + k / bw)

/-- One product (R156, R157, R211, R216, R217): every factor exact. -/
def Op.product (op : Op) (e : FmtEntry) (f : Nat × Nat × Nat × Nat) : FVal :=
  let (a, w, sa, sw) := f
  let base := (elementValue (fmtA e.word) a).mul (elementValue (fmtW e.word) w)
  if fmtMode e.word = 1 then base
  else
    let scale (on : Bool) (key : Nat) (x : FVal) : FVal :=
      if on then x.mul (elementValue 4 (op.bytes.get key).toNat) else x
    (scale (fmtSba e.word) (keyScaleA + sa) (scale (fmtSbw e.word) (keyScaleW + sw) base)).mul
      ((f32.value e.ta.toNat).mul (f32.value e.tw.toNat))

/-- The slot (i, n) after the command, or none. -/
def Op.slotAfter (op : Op) (e : FmtEntry) (k : Slot) (i n id : Nat) : Option Slot :=
  let fs := op.factors e.word i n
  let tern := fs.any fun f => reservedTern (fmtA e.word) f.1 || reservedTern (fmtW e.word) f.2.1
  accumulate k (zeroesFirst op.word) (fmtMode e.word == 1) tern e.anchor (fs.map (op.product e)) id

/-- The C offset operand of a tile command. -/
def Op.tileC (op : Op) : Nat :=
  match op.word with
  | .dwa _ | .dwaz _ => arg op.args 1
  | _ => arg op.args 0

/-- The 128 slots of row i after the command; none where one breaks the headroom limit (R162). -/
def State.rowAfter (s : State) (p : PipeRef) (op : Op) (e : FmtEntry) (i : Nat) : Option (List Slot) :=
  (List.range 128).mapM fun n => op.slotAfter e (s.slotAt p ((op.tileC + i * 4096) / 32 + n)) i n (s.fresh + n)

/-- TILE_ROW_COMPLETE (R157, R158, R161): row i of a tile command accumulates into its slots. -/
def execTileRowComplete (s : State) : Out :=
  match s.ev with
  | .op p id i =>
    match (s.pipe p).ops.get? id with
    | none => .next s
    | some op =>
      match op.fmt with
      | none => .next s
      | some e =>
        let s1 := s.putOp p id (op.completed i)
        if op.dead then .next s1
        else
          match s1.rowAfter p op e i with
          | some ks =>
            let s2 := ks.zipIdx.foldl (fun st x => st.setSlot p ((op.tileC + i * 4096) / 32 + x.2) x.1) s1
            .next { s2 with fresh := s2.fresh + 128 }
          | none =>
            let s2 := s1.putOp p id { op.completed i with dead := true }
            match s.jobs.get? op.job with
            | some v => .next (s2.raiseAt op.job v ⟨p, op.eng⟩ 23 0)
            | none => .next s2
  | _ => .next s

end Sys2Proof.Machine
end

