-- ==== Sys2Proof/Machine/Vector.lean ====
section
/-! DEFINITION. The vector engine's words (R163 to R175) and the completion of their steps. -/

namespace Sys2Proof.Machine

/-! ## Operands (R163, R164) -/

/-- BC of an operand word. -/
def operandBc (w : Word) : Nat := wbits w 59 2
/-- OFF of an operand word. -/
def operandOff (w : Word) : Nat := wbits w 0 22
/-- N of a count word. -/
def countN (w : Word) : Nat := wbits w 0 24
/-- G = 2^GL of a count word. -/
def countG (w : Word) : Nat := 2 ^ wbits w 24 4

/-- The index of the element that element i of an operand reads (Table 7). -/
def bcIndex (bc g i : Nat) : Nat :=
  match bc with
  | 0 => i
  | 1 => 0
  | 2 => i / g
  | _ => i % g

/-- An operand in A: its word and the bits of an element (1 for a mask). -/
structure VecOperand where
  word : Word
  bits : Nat
  deriving DecidableEq, Repr

/-- What a VXE word does with its operands: the count word, the destination, whether that holds one element per group, the
A sources in operand order, the slots, and the logic time (Table 8). -/
structure VecForm where
  count : Word
  dst : VecOperand
  grouped : Bool
  srcs : List VecOperand
  slots : Option Word
  logic : Nat
  deriving DecidableEq, Repr

/-- Bits of an element of a suffix (R165, R168). -/
def suffixBits (t : BitVec 5) : Nat :=
  match t.toNat with
  | 0 | 1 => 32
  | 14 | 15 => 8
  | _ => 16

/-- The float format that a suffix names (R165). -/
def suffixFloat (t : BitVec 5) : FloatFmt :=
  match t.toNat with
  | 2 => f16
  | 3 => bf16
  | _ => f32

/-- Bits of a VCVT source (R172). -/
def sourceBits (x : BitVec 3) : Nat := if x.toNat = 1 ∨ x.toNat = 2 then 16 else 32

/-- Bits of a conversion's or requantisation's destination (R172, R175). -/
def destBits (d : BitVec 5) (i : BitVec 1) : Nat :=
  if i = 1 then 32
  else
    match d.toNat with
    | 1 => 32
    | 2 | 3 | 13 => 16
    | _ => 8

/-- The operands of a VXE word, the first popped being n. -/
def vecForm (i : Instr) (l : List Word) : VecForm :=
  let w (k : Nat) : Word := (l[k]?).getD 0
  let plain (b : Nat) (dst : Word) (srcs : List Word) (logic : Nat) : VecForm :=
    { count := w 0, dst := ⟨dst, b⟩, grouped := false, srcs := srcs.map fun x => ⟨x, b⟩, slots := none, logic := logic }
  match i with
  | .vadd t | .vsub t | .vmul t | .vmax t | .vmin t => plain (suffixBits t) (w 3) [w 2, w 1] 1
  | .vfma t => plain (suffixBits t) (w 4) [w 3, w 2, w 1] 1
  | .vabs t | .vmov t => plain (suffixBits t) (w 2) [w 1] 1
  | .vexp t | .vrcp t | .vrsq t => plain (suffixBits t) (w 2) [w 1] 2
  | .vsel t => { plain (suffixBits t) (w 4) [] 1 with srcs := [⟨w 3, 1⟩, ⟨w 2, suffixBits t⟩, ⟨w 1, suffixBits t⟩] }
  | .vcmp t _ => { plain (suffixBits t) 0 [w 2, w 1] 1 with dst := ⟨w 3, 1⟩ }
  | .vred t _ => { plain (suffixBits t) (w 2) [w 1] 1 with grouped := true }
  | .vcvt d x => { plain (sourceBits x) 0 [w 1] 1 with dst := ⟨w 2, destBits d 0⟩ }
  | .vres f t => { plain (8 * targetSize f t) (w 1) [] 4 with slots := some (w 2) }
  | .vcmpu t _ => { plain (suffixBits t) 0 [w 1] 2 with dst := ⟨w 3, 1⟩, slots := some (w 2) }
  | .vrq d t => { plain 32 0 [w 2, w 1] 1 with dst := ⟨w 3, destBits d t⟩ }
  | _ => plain 32 0 [] 1

/-- Whether an operand word keeps its form: MBZ fields, and alignment to its element (R163, R164). -/
def VecOperand.ok (o : VecOperand) : Bool :=
  wbits o.word 61 3 == 0 && wbits o.word 22 37 == 0 && (o.bits == 1 || operandOff o.word % (o.bits / 8) == 0)

/-- How many elements an operand indexes over n elements. -/
def indexCount (bc g n : Nat) : Nat :=
  match bc with
  | 0 => n
  | 1 => 1
  | 2 => n / g
  | _ => Nat.min g n

/-- Bytes that k elements of an operand occupy from its offset. -/
def VecOperand.span (o : VecOperand) (k : Nat) : Nat := (k * o.bits + 7) / 8

/-- The elements of the destination. -/
def VecForm.outputs (f : VecForm) : Nat := if f.grouped then countN f.count / countG f.count else countN f.count

/-- The checks of R164 that raise bad-geometry. -/
def VecForm.ok (f : VecForm) : Bool :=
  let n := countN f.count
  let g := countG f.count
  let dLo := operandOff f.dst.word
  let dLen := f.dst.span f.outputs
  let groups := f.grouped || f.srcs.any fun o => decide (2 ≤ operandBc o.word)
  n != 0 && wbits f.count 28 36 == 0 && decide (wbits f.count 24 4 ≤ 7) && f.dst.ok && operandBc f.dst.word == 0
    && f.srcs.all VecOperand.ok && (!groups || n % g == 0)
    && (match f.slots with
      | none => true
      | some w => wbits w 22 42 == 0 && operandOff w % 32 == 0)
    && f.srcs.all fun o =>
        !rangesOverlap dLo dLen (operandOff o.word) (o.span (indexCount (operandBc o.word) g n))
          || (operandBc o.word == 0 && operandOff o.word == dLo && decide (f.dst.bits ≤ o.bits))

/-- Whether every element indexed lies in its buffer (R164). -/
def VecForm.inRange (f : VecForm) : Bool :=
  let n := countN f.count
  let g := countG f.count
  decide (operandOff f.dst.word + f.dst.span f.outputs ≤ bufSize .a)
    && f.srcs.all (fun o => decide (operandOff o.word + o.span (indexCount (operandBc o.word) g n) ≤ bufSize .a))
    && (match f.slots with
      | none => true
      | some w => decide (operandOff w + 32 * n ≤ bufSize .c))

/-! ## The schedule of a word (R166, R167) -/

/-- Lines of a full step of an operand. -/
def stepLines (bc g bits : Nat) : Nat :=
  let e := match bc with
    | 0 => 1024
    | 1 => 1
    | 2 => 1024 / g
    | _ => g
  ceilDiv (e * bits) 512

/-- The step time c. -/
def VecForm.stepTime (f : VecForm) : Nat :=
  let g := countG f.count
  let t := (f.srcs.map fun o => stepLines (operandBc o.word) g o.bits).foldl (· + ·)
    (stepLines (if f.grouped then 2 else 0) g f.dst.bits)
  Nat.max f.logic (ceilDiv t 32)

/-- Elements [lo, hi) of an operand that step x indexes. -/
def stepElements (bc g n x : Nat) : Nat × Nat :=
  let lo := 1024 * x
  let hi := Nat.min n (lo + 1024)
  match bc with
  | 0 => (lo, hi)
  | 1 => (0, 1)
  | 2 => (lo / g, ceilDiv hi g)
  | _ => (0, Nat.min g (hi - lo))

/-- Where step x captures the bytes of source o. -/
def keyVec (x o : Nat) : Nat := (x * 4 + o) * 2 ^ 23

/-- The bytes of A that step x touches in an operand: first offset from OFF, and length. -/
def VecOperand.stepBytes (o : VecOperand) (bc g n x : Nat) : Nat × Nat :=
  let (lo, hi) := stepElements bc g n x
  (lo * o.bits / 8, (hi * o.bits + 7) / 8 - lo * o.bits / 8)

/-- The bank cycles that a range of A needs within a step of c cycles from its cycle b: for each line, to read the bytes of the
range in it, or to write. -/
def lineUses (reads : Bool) (off n b c : Nat) : List Planned :=
  (List.range (if n = 0 then 0 else (off + n - 1) / 64 - off / 64 + 1)).map fun k =>
    let lo := Nat.max off ((off / 64 + k) * 64)
    let hi := Nat.min (off + n) ((off / 64 + k + 1) * 64)
    ⟨b, .use .a lo (if reads then hi - lo else 0) (b + c - 1)⟩

/-- The C unit reads of a step: the units of one bank in successive cycles, or as the banks allow within its c cycles (R167,
R199). -/
def unitReads (src lo n b c : Nat) : List Planned :=
  let first := src + 32 * lo
  let last := first + 32 * n
  (List.range (if n = 0 then 0 else (last - 1) / 1024 - first / 1024 + 1)).map fun k =>
    let x := Nat.max first ((first / 1024 + k) * 1024)
    let y := Nat.min last ((first / 1024 + k + 1) * 1024)
    ⟨b + Nat.min (k / 16) (c - 1), .units x (y - x) (lo + (x - first) / 32) (b + c - 1)⟩

/-- Step x of a word: its reads, its bank cycles, its completion. -/
def VecForm.step (f : VecForm) (p : PipeRef) (x : Nat) : List Planned :=
  let n := countN f.count
  let g := countG f.count
  let c := f.stepTime
  let b := x * c
  let reads := (f.srcs.zipIdx.map fun y =>
    let o := y.1
    let (at_, len) := o.stepBytes (operandBc o.word) g n x
    let off := operandOff o.word + at_
    (⟨b, .read p .a off len (keyVec x y.2 + at_) false⟩ : Planned) :: lineUses true off len b c).flatten
  let (dAt, dLen) := f.dst.stepBytes (if f.grouped then 2 else 0) g n x
  let units := match f.slots with
    | none => []
    | some w => unitReads (operandOff w) (1024 * x) (Nat.min 1024 (n - 1024 * x)) b c
  reads ++ lineUses false (operandOff f.dst.word + dAt) dLen b c ++ units ++ [⟨b + c + 3, .complete x⟩]

/-- Issues a VXE word that pops `pops` operands; `ok` is its further check. A word that breaks a rule of bad-geometry and the range
rule raises bad-geometry. [log 89] -/
def vecLaunch (s : State) (i : Instr) (pops : Nat) (ok : List Word → Bool) : Out :=
  launch s i pops fun j v l s =>
    let f := vecForm i l
    geometry (f.ok && ok l) <|
      if !f.inRange then .error (8, 0)
      else
        let p := s.sf.pipe
        let steps := ceilDiv (countN f.count) 1024
        let plan := ((List.range steps).map fun x => f.step p x).flatten
        s.startOp j v { s.newOp j v i l (steps * f.stepTime) with plan := plan } []
          [⟨p, .a, operandOff f.dst.word, f.dst.span f.outputs⟩]

/-- No further check. -/
def anyOperands (_ : List Word) : Bool := true

/-- VADD (R168). -/
def execVadd (t : BitVec 5) (s : State) : Out := vecLaunch s (.vadd t) 4 anyOperands
/-- VSUB (R168). -/
def execVsub (t : BitVec 5) (s : State) : Out := vecLaunch s (.vsub t) 4 anyOperands
/-- VMUL (R168). -/
def execVmul (t : BitVec 5) (s : State) : Out := vecLaunch s (.vmul t) 4 anyOperands
/-- VFMA (R168). -/
def execVfma (t : BitVec 5) (s : State) : Out := vecLaunch s (.vfma t) 5 anyOperands
/-- VMAX (R168). -/
def execVmax (t : BitVec 5) (s : State) : Out := vecLaunch s (.vmax t) 4 anyOperands
/-- VMIN (R168). -/
def execVmin (t : BitVec 5) (s : State) : Out := vecLaunch s (.vmin t) 4 anyOperands
/-- VABS (R168). -/
def execVabs (t : BitVec 5) (s : State) : Out := vecLaunch s (.vabs t) 3 anyOperands
/-- VEXP (R169). -/
def execVexp (t : BitVec 5) (s : State) : Out := vecLaunch s (.vexp t) 3 anyOperands
/-- VRCP (R169). -/
def execVrcp (t : BitVec 5) (s : State) : Out := vecLaunch s (.vrcp t) 3 anyOperands
/-- VRSQ (R169). -/
def execVrsq (t : BitVec 5) (s : State) : Out := vecLaunch s (.vrsq t) 3 anyOperands
/-- VSEL (R168). -/
def execVsel (t : BitVec 5) (s : State) : Out := vecLaunch s (.vsel t) 5 anyOperands
/-- VCMP (R170). -/
def execVcmp (t : BitVec 5) (c : BitVec 3) (s : State) : Out := vecLaunch s (.vcmp t c) 4 anyOperands
/-- VRED (R171). -/
def execVred (t : BitVec 5) (o : BitVec 3) (s : State) : Out := vecLaunch s (.vred t o) 3 anyOperands
/-- VCVT (R172). -/
def execVcvt (d : BitVec 5) (x : BitVec 3) (s : State) : Out := vecLaunch s (.vcvt d x) 3 anyOperands
/-- VRES (R173): the integer form pops the requant word too. -/
def execVres (f : BitVec 5) (i : BitVec 1) (s : State) : Out :=
  vecLaunch s (.vres f i) (if targetInt f i then 4 else 3) fun l => !targetInt f i || requantOk (arg l 3) 95
/-- VCMPU (R174). -/
def execVcmpu (t : BitVec 5) (c : BitVec 3) (s : State) : Out := vecLaunch s (.vcmpu t c) 4 anyOperands
/-- VRQ (R175). -/
def execVrq (d : BitVec 5) (i : BitVec 1) (s : State) : Out := vecLaunch s (.vrq d i) 5 fun l => requantOk (arg l 4) 63
/-- VMOV (R168). -/
def execVmov (t : BitVec 5) (s : State) : Out := vecLaunch s (.vmov t) 3 anyOperands

/-! ## Element functions (R165, R169 to R175) -/

/-- Terms of the exponential series, summed in units of 2^−384 while they are not zero. -/
def expSeries (x : Nat) : Nat → Nat → Nat → Nat → Nat
  | 0, _, _, sum => sum
  | n + 1, k, term, sum =>
    let t := term * x / (k * 2 ^ 384)
    if t = 0 then sum else expSeries x n (k + 1) t (sum + t)

/-- e^a in FP32, rounded once (R169). The series of e^|a| stops with a relative error below 2^−370; no result but e^0 lies
on a rounding boundary. -/
def vecExp (a : Nat) : Nat :=
  match f32.value a with
  | .nan => f32.quiet a
  | .inf neg => if neg then 0 else f32.inf
  | .fin neg m e =>
    if m = 0 then 0x3F800000
    else if 104 < m * scaleUp e / scaleUp (-e) then (if neg then 0 else f32.inf)
    else
      let x := m * 2 ^ (384 + e).toNat
      let y := expSeries x 1000 1 (2 ^ 384) (2 ^ 384)
      let r := if neg then 2 ^ 768 / y else y
      f32.roundMag .rne false (2 * r + 1) 1 (-385)

/-- 1 ÷ √a in FP32, rounded once (R169). -/
def vecRsq (a : Nat) : Nat :=
  match f32.value a with
  | .nan => f32.quiet a
  | .inf neg => if neg then f32.nan else 0
  | .fin neg m e =>
    if m = 0 then f32.signed neg f32.inf
    else if neg then f32.nan
    else
      let odd := e % 2 ≠ 0
      let m := if odd then 2 * m else m
      let e := if odd then e - 1 else e
      let t := isqrt (2 ^ 128 / m)
      f32.roundMag .rne false (2 * t + (if t * t * m = 2 ^ 128 then 0 else 1)) 1 (-(e / 2) - 65)

/-- Widens a pattern to FP32 (R165). -/
def widenElement (f : FloatFmt) (v : Nat) : Nat := if f = f32 then v else convertFloat f f32 .rne v

/-- Rounds an FP32 pattern to a type (R165). -/
def narrowElement (f : FloatFmt) (v : Nat) : Nat := if f = f32 then v else convertFloat f32 f .rne v

/-- An 8-bit float destination (R172, R208): exponent and mantissa bits, bias, the largest finite pattern. -/
structure NarrowFmt where
  ebits : Nat
  mbits : Nat
  bias : Nat
  most : Nat
  deriving DecidableEq, Repr

/-- Rounds an exact value to nearest-even into an 8-bit float, saturating; `inf` is its infinity, if it has one. -/
def NarrowFmt.round (f : NarrowFmt) (inf : Option Nat) : FVal → Nat
  | .nan => f.most
  | .inf neg => (if neg then 128 else 0) + inf.getD f.most
  | .fin neg m e =>
    (if neg then 128 else 0) +
      if m = 0 then 0
      else
        let qmin : Int := 1 - (f.bias : Int) - f.mbits
        let q := max (floorLog m 1 e - f.mbits) qmin
        let n := m * scaleUp (e - q)
        let d := scaleUp (q - e)
        let t := n / d
        let t := if roundsUp .rne neg t (n % d) d then t + 1 else t
        Nat.min f.most (if t < 2 ^ f.mbits then t else (q - qmin).toNat * 2 ^ f.mbits + t)

/-- VCVT of one element (R172, R208). -/
def vecConvert (d : BitVec 5) (x : BitVec 3) (v : Nat) : Nat :=
  let src := match x.toNat with
    | 1 => f16
    | 2 => bf16
    | _ => f32
  let isInt := x.toNat = 3
  let value := if isInt then FVal.ofInt (signed 32 v) else src.value v
  let sign := if src.sign v then 128 else 0
  let toFloat (f : FloatFmt) : Nat := if isInt then f.round .rne value else if src.isNan v then
    (if src = f then f.quiet v else convertNan src f v) else f.round .rne value
  let toInt (n : Nat) : Nat :=
    (FVal.toIntSat .rne (-(2 ^ (n - 1) : Int)) (2 ^ (n - 1) - 1) value % 2 ^ n).toNat
  match d.toNat with
  | 1 => toFloat f32
  | 2 => toFloat f16
  | 3 => toFloat bf16
  | 4 => if value.isNan then 0x7F + sign else (⟨4, 3, 7, 0x7E⟩ : NarrowFmt).round none value
  | 5 => if value.isNan then 0x7E + sign else (⟨5, 2, 15, 0x7B⟩ : NarrowFmt).round (some 0x7C) value
  | 6 => if value.isNan then 0x7F + sign else (⟨3, 4, 3, 0x7E⟩ : NarrowFmt).round none value
  | 13 => toInt 16
  | _ => toInt 8

/-- A condition of VCMP and VCMPU over two values, `un` when they are unordered (R170). -/
def vecCond (c : BitVec 3) (un : Bool) (x y : FVal) : Bool :=
  match c.toNat with
  | 0 => !un && x.eq y
  | 1 => !un && x.lt y
  | 2 => !un && (x.lt y || x.eq y)
  | 3 => un
  | 4 => un || !x.eq y
  | 5 => !un && y.lt x
  | _ => !un && (y.lt x || x.eq y)

/-- The value of a slot in a comparison (R174), once it is not unordered. -/
def Slot.compareValue (k : Slot) : FVal :=
  if k.pi then .inf false else if k.mi then .inf true else if k.count = 0 then .fin false 0 0 else k.value

/-- Adds adjacent pairs of a list in FP32 (R171). -/
def addPairs : List Nat → List Nat
  | a :: b :: l => f32.add .rne a b :: addPairs l
  | l => l

/-- The tree sum over 2^n elements. -/
def treeSum : Nat → List Nat → Nat
  | 0, l => l.headD 0
  | n + 1, l => treeSum n (addPairs l)

/-- A reduction of a group (R171). -/
def vecReduce (f : FloatFmt) (o : BitVec 3) (logG : Nat) (vs : List Nat) : Nat :=
  let ws := vs.map (widenElement f)
  let ws := if o.toNat = 3 then ws.map f32.abs else ws
  let r := match o.toNat with
    | 0 => treeSum logG ws
    | 2 => ws.tail.foldl f32.min (ws.headD 0)
    | _ => ws.tail.foldl f32.max (ws.headD 0)
  narrowElement f (if f32.isNan r then f32.quiet r else r)

/-- VRQ of one element (R175). -/
def vecRequant (d : BitVec 5) (i : BitVec 1) (q : Word) (irnd a b : Nat) : Nat :=
  let r := roundShift (signed 32 a * signed 32 b) (wbits q 0 7) irnd + signed 32 (wbits q 32 32)
  let n := destBits d i
  let v := if i = 0 ∧ d.toNat = 15 then clamp 0 255 r else saturateTo n r
  (v % 2 ^ n).toNat

/-- Element k of source o of step x, as captured. -/
def Op.source (op : Op) (f : VecForm) (x o k : Nat) : Nat :=
  match f.srcs[o]? with
  | none => 0
  | some y =>
    let e := bcIndex (operandBc y.word) (countG f.count) k
    if y.bits = 1 then (op.bytes.get (keyVec x o + e / 8)).toNat / 2 ^ (e % 8) % 2
    else op.bytes.num (keyVec x o + e * (y.bits / 8)) (y.bits / 8)

/-- Element k of a word's destination, or group k of VRED's, in step x. -/
def Op.vecElement (op : Op) (f : VecForm) (x k : Nat) : Nat :=
  let s (o : Nat) : Nat := op.source f x o k
  let two (t : BitVec 5) (g : Nat → Nat → Nat) : Nat :=
    narrowElement (suffixFloat t) (g (widenElement (suffixFloat t) (s 0)) (widenElement (suffixFloat t) (s 1)))
  let one (t : BitVec 5) (g : Nat → Nat) : Nat := narrowElement (suffixFloat t) (g (widenElement (suffixFloat t) (s 0)))
  let slot : Slot := (op.slots.get? k).getD Slot.zero
  let flag (b : Bool) : Nat := if b then 1 else 0
  match op.word with
  | .vadd t => two t (f32.add .rne)
  | .vsub t => two t (f32.sub .rne)
  | .vmul t => two t (f32.mul .rne)
  | .vfma t =>
    let w (o : Nat) : Nat := widenElement (suffixFloat t) (s o)
    narrowElement (suffixFloat t) (f32.fma .rne (w 2) (w 0) (w 1))
  | .vmax t => two t f32.max
  | .vmin t => two t f32.min
  | .vabs t => (suffixFloat t).abs (s 0)
  | .vexp t => one t vecExp
  | .vrcp t => one t (f32.div .rne 0x3F800000)
  | .vrsq t => one t vecRsq
  | .vsel _ => if s 0 = 1 then s 1 else s 2
  | .vcmp t c =>
    let h := suffixFloat t
    flag (vecCond c (h.isNan (s 0) || h.isNan (s 1)) (h.value (s 0)) (h.value (s 1)))
  | .vred t o =>
    let g := countG f.count
    vecReduce (suffixFloat t) o (wbits f.count 24 4) ((List.range g).map fun i => op.source f x 0 (k * g + i))
  | .vcvt d y => vecConvert d y (s 0)
  | .vres h i => resolveSlot h i ((op.args[3]?).getD 0) op.rnd op.irnd slot
  | .vcmpu t c =>
    let h := suffixFloat t
    flag (vecCond c (slot.unordered || h.isNan (s 0)) slot.compareValue (h.value (s 0)))
  | .vrq d i => vecRequant d i ((op.args[4]?).getD 0) op.irnd (s 0) (s 1)
  | _ => s 0

/-- Packs bits into bytes, bit 0 first; the last byte's free bits are 0 (R170). -/
def packBits : List Nat → List Byte
  | a :: b :: c :: d :: e :: f :: g :: h :: l =>
    BitVec.ofNat 8 (a + 2 * b + 4 * c + 8 * d + 16 * e + 32 * f + 64 * g + 128 * h) :: packBits l
  | [] => []
  | l => [BitVec.ofNat 8 (l.foldr (fun b v => b + 2 * v) 0)]

/-- The offset from the destination and the bytes that step x writes. -/
def Op.vecBytes (op : Op) (f : VecForm) (x : Nat) : Nat × List Byte :=
  let n := countN f.count
  let (lo, hi) := stepElements (if f.grouped then 2 else 0) (countG f.count) n x
  let vs := (List.range (hi - lo)).map fun k => op.vecElement f x (lo + k)
  (lo * f.dst.bits / 8, if f.dst.bits = 1 then packBits vs else (vs.map (leBytes (f.dst.bits / 8))).flatten)

/-- VXE_STEP_COMPLETE (R167): step u of a VXE word writes its elements. -/
def execVxeStepComplete (s : State) : Out :=
  match s.ev with
  | .op p id u =>
    match (s.pipe p).ops.get? id with
    | none => .next s
    | some op =>
      let f := vecForm op.word op.args
      let (at_, bs) := op.vecBytes f u
      .next ((s.putOp p id (op.completed u)).aSet p (operandOff f.dst.word + at_) bs)
  | _ => .next s

end Sys2Proof.Machine
end

