-- ==== Sys2Proof/Machine/JobFront.lean ====
section
/-! DEFINITION. The partition front: JOB (R34, R104), the job image (Tables 15 to 20), acceptance and displacement (R332 to
R337), completion and the fault record (R125, R185, R331), bank claims' ends (R335 to R337), partitions (R181, R294). -/

namespace Sys2Proof.Machine

/-! ## CRC-32C (Table 4 of R6) -/

/-- One bit of the checksum, least significant first; the reflected polynomial is 0x82F6_3B78. [log 14] -/
def crcBit (c : BitVec 32) : BitVec 32 := if c.getLsbD 0 then (c >>> 1) ^^^ 0x82F63B78 else c >>> 1

/-- One byte of the checksum. -/
def crcByte (c : BitVec 32) (b : Byte) : BitVec 32 :=
  crcBit (crcBit (crcBit (crcBit (crcBit (crcBit (crcBit (crcBit (c ^^^ b.zeroExtend 32))))))))

/-- CRC-32C of bytes. -/
def crc32c (bs : List Byte) : BitVec 32 := ~~~(bs.foldl crcByte 0xFFFFFFFF)

/-! ## The job image (Tables 16 to 20) -/

/-- The n-byte number at an offset of an image; bytes beyond its end count as 0. -/
def imageNum (bs : List Byte) (off n : Nat) : Nat := leNat ((bs.drop off).take n)

/-- The 64-bit word at an offset of an image. -/
def imageWord (bs : List Byte) (off : Nat) : Word := toWord (imageNum bs off 8)

/-- A table of the header: COUNT and OFFSET. -/
def imageTable (bs : List Byte) (k : Nat) : Nat × Nat :=
  let w := imageWord bs (0x20 + 8 * k)
  (wbits w 48 16, wbits w 0 32)

/-- The buffer that a BUF field names. -/
def bufOf (n : Nat) : Buf := match n with
  | 0 => .w
  | 1 => .a
  | _ => .c

/-- The offsets of the records that an offset table names, as far as the image holds its entries. -/
def recordOffsets (bs : List Byte) (k : Nat) : List Nat :=
  let (count, off) := imageTable bs k
  (List.range count).filterMap fun i => if off + 8 * i + 8 ≤ bs.length then some (imageNum bs (off + 8 * i) 8) else none

/-- The map words, the slot words and the length of the oasis record at an offset. -/
def oasisParts (bs : List Byte) (off : Nat) : List Word × List (Word × Word) × Nat :=
  let w1 := imageWord bs (off + 8)
  let maps := wbits w1 24 8
  let slots := wbits w1 16 8
  ((List.range maps).map fun i => imageWord bs (off + 16 + 8 * i),
   (List.range slots).map fun i =>
     (imageWord bs (off + 16 + 8 * maps + 16 * i), imageWord bs (off + 24 + 8 * maps + 16 * i)),
   16 + 8 * maps + 16 * slots)

/-- The oasis record at an offset (Table 18). -/
def oasisRecord (bs : List Byte) (off : Nat) : OasisRecord :=
  let w1 := imageWord bs (off + 8)
  let (maps, slots, _) := oasisParts bs off
  { openAt := imageNum bs off 8, len := wbits w1 32 16,
    maps := maps.map fun m =>
      { buf := bufOf (wbits m 62 2), wr := wbits m 61 1 == 1, rd := wbits m 60 1 == 1, off := wbits m 32 24, len := wbits m 0 24 },
    slots := slots.map fun x => { bound := wbits x.1 32 32, default := wbits x.1 0 32, stall := wbits x.2 0 1 == 1 },
    segtab := if wbits w1 0 16 = 0xFFFF then none else some (wbits w1 0 16) }

/-- The shape record at an offset (Table 19). -/
def shapeRecord (bs : List Byte) (off : Nat) : ShapeRecord :=
  let w0 := imageWord bs off
  { buf := bufOf (wbits w0 62 2), base := wbits w0 32 24, rows := wbits w0 16 16, elem := wbits w0 0 16,
    stride := imageNum bs (off + 8) 4 }

/-- The segment table at an offset (Table 20). -/
def segmentTable (bs : List Byte) (off : Nat) : List Segment :=
  (List.range (imageNum bs off 1)).map fun i =>
    let at_ := off + 8 + 32 * i
    { slen := imageNum bs at_ 4, seq := imageNum bs (at_ + 8) 4, lde := imageNum bs (at_ + 12) 4,
      mxe := imageNum bs (at_ + 16) 4, vxe := imageNum bs (at_ + 20) 4, cpe := imageNum bs (at_ + 24) 4 }

/-- The entry point of an engine in a segment. -/
def Segment.entry (g : Segment) : Engine → Nat
  | .seq => g.seq
  | .lde => g.lde
  | .mxe => g.mxe
  | .vxe => g.vxe
  | .cpe => g.cpe

/-- The length and the offset of an engine's code on job-relative pipe i (Table 16). -/
def imageCode (bs : List Byte) (i : Nat) (e : Engine) : Nat × Nat :=
  let w := imageWord bs (0x40 + 64 * i + 8 * e.idx)
  (wbits w 32 32, wbits w 0 32)

/-- The fields of a job image that acceptance uses. -/
structure Image where
  pipes : Nat
  length : Nat
  rdv : Word
  maxgap : Nat
  aligned : Bool
  compat : Bool
  heavy : Nat
  shapes : List ShapeRecord
  oases : List OasisRecord
  segtabs : List (List Segment)
  deriving DecidableEq, Repr

/-- Reads an image (Tables 16 to 20). -/
def readImage (bs : List Byte) : Image :=
  let w0 := imageWord bs 0
  let w1 := imageWord bs 8
  let (n, off) := imageTable bs 0
  { pipes := wbits w1 32 16, length := wbits w1 0 32, rdv := imageWord bs 0x10, maxgap := wbits (imageWord bs 0x18) 32 24,
    aligned := wbits w0 33 1 == 1, compat := wbits w0 32 1 == 1, heavy := wbits w1 56 8,
    shapes := (List.range n).map fun i => shapeRecord bs (off + 16 * i),
    oases := (recordOffsets bs 1).map (oasisRecord bs), segtabs := (recordOffsets bs 2).map (segmentTable bs) }

/-- Set bits of a mask below 2^n. -/
def setBits : Nat → Nat → List Nat
  | 0, _ => []
  | n + 1, m => setBits n m ++ (if bit m n then [n] else [])

/-! ## The checks of Table 15 -/

/-- Check 3: every field of the image that must be zero is zero. -/
def imageMbz (bs : List Byte) : Bool :=
  let w0 := imageWord bs 0
  let (shapes, shapeOff) := imageTable bs 0
  wbits w0 34 14 == 0 && wbits (imageWord bs 8) 48 8 == 0 && wbits (imageWord bs 0x18) 56 8 == 0
    && ((List.range 3).all fun k => wbits (imageWord bs (0x20 + 8 * k)) 32 16 == 0) && imageWord bs 0x38 == 0
    && ((List.range (wbits (imageWord bs 8) 32 16)).all fun i => (List.range 3).all fun k =>
        imageWord bs (0x40 + 64 * i + 40 + 8 * k) == 0)
    && ((List.range shapes).all fun i =>
        wbits (imageWord bs (shapeOff + 16 * i)) 56 6 == 0 && imageNum bs (shapeOff + 16 * i + 12) 4 == 0)
    && ((recordOffsets bs 1).all fun o =>
        let (maps, slots, _) := oasisParts bs o
        wbits (imageWord bs (o + 8)) 48 16 == 0 && maps.all (fun m => wbits m 56 4 == 0 && wbits m 24 8 == 0)
          && slots.all fun x => wbits x.2 1 63 == 0)
    && ((recordOffsets bs 2).all fun o =>
        imageNum bs (o + 1) 7 == 0 && (List.range (imageNum bs o 1)).all fun i =>
          imageNum bs (o + 8 + 32 * i + 4) 4 == 0 && imageNum bs (o + 8 + 32 * i + 28) 4 == 0)

/-- Check 5: the image holds its header, entries, tables and code. -/
def imageLong (bs : List Byte) : Bool :=
  let i := readImage bs
  let n := i.length
  let fits (off len : Nat) : Bool := decide (off + len ≤ n)
  decide (64 + 64 * i.pipes ≤ n)
    && (let (c, o) := imageTable bs 0; c == 0 || fits o (16 * c))
    && (let (c, o) := imageTable bs 1; c == 0 || fits o (8 * c))
    && (let (c, o) := imageTable bs 2; c == 0 || fits o (8 * c))
    && (recordOffsets bs 1).all (fun o => fits o (oasisParts bs o).2.2)
    && (recordOffsets bs 2).all (fun o => fits o (8 + 32 * imageNum bs o 1))
    && (List.range i.pipes).all fun p => engines.all fun e =>
        let (len, off) := imageCode bs p e
        len == 0 || fits off (2 * len)

/-- The limits of a map word (Table 18). -/
def mapOk (m : Word) : Bool :=
  let b := wbits m 62 2
  let off := wbits m 32 24
  let len := wbits m 0 24
  b != 3 && !(wbits m 61 1 == 1 && b != 1) && wbits m 60 2 != 0 && off % 64 == 0 && len % 64 == 0 && len != 0
    && decide (off + len ≤ bufSize (bufOf b))

/-- Check 8: every value within its limits. -/
def imageLimits (bs : List Byte) : Bool :=
  let i := readImage bs
  let tableOk (k : Nat) : Bool :=
    let (c, o) := imageTable bs k
    o % 8 == 0 && (c != 0 || o == 0)
  decide (1 ≤ i.pipes) && decide (i.pipes ≤ 192) && i.length % 8 == 0 && tableOk 0 && tableOk 1 && tableOk 2
    && (recordOffsets bs 1).all (fun o => o % 8 == 0) && (recordOffsets bs 2).all (fun o => o % 8 == 0)
    && ((List.range i.pipes).all fun p => engines.all fun e => (imageCode bs p e).2 % 2 == 0)
    && ((recordOffsets bs 1).all fun o =>
        let w1 := imageWord bs (o + 8)
        let (maps, slots, _) := oasisParts bs o
        let seg := wbits w1 0 16
        wbits w1 32 16 != 0 && decide (1 ≤ maps.length) && decide (maps.length ≤ 8) && decide (slots.length ≤ 16)
          && (seg == 0xFFFF || (decide (seg < i.segtabs.length) && slots.length != 0)) && maps.all mapOk
          && slots.all fun x => decide (wbits x.1 0 32 ≤ wbits x.1 32 32))
    && ((List.range (imageTable bs 0).1).all fun k =>
        let o := (imageTable bs 0).2 + 16 * k
        let sh := shapeRecord bs o
        wbits (imageWord bs o) 62 2 != 3 && sh.rows != 0 && ([1, 2, 4, 8, 32] : List Nat).contains sh.elem
          && decide (sh.base + sh.rows * sh.stride ≤ bufSize sh.buf))
    && i.segtabs.all fun t =>
        decide (1 ≤ t.length) && decide (t.length ≤ 16) && t.all fun g =>
          g.slen != 0 && (List.range i.pipes).all fun p => engines.all fun e =>
            let len := (imageCode bs p e).1
            len == 0 || decide (g.entry e < len)

/-- Whether the pages of a range translate for the partition front, master class 1 (R34). -/
def State.frontRange (s : State) (r : JobReq) (va n : Nat) (use : Use) : Bool :=
  decide (va + n ≤ deviceEnd)
    && s.rangeOk r.part.dev (s.ctx r.src).space va use 1 false (pagesOf va n)

/-- Reads n bytes for the partition front, whose pages translate. -/
def State.frontBytes (s : State) (r : JobReq) (va n : Nat) : List Byte :=
  (s.virtGet r.part.dev (s.ctx r.src).space 1 va n).getD []

/-- The number of the first check of Table 15 that fails, or the image's bytes. -/
def State.imageCheck (s : State) (r : JobReq) : Except Nat (List Byte) :=
  let va := r.image.toNat
  if va % 64 ≠ 0 ∨ !s.frontRange r va 64 .read then .error 1
  else
    let head := s.frontBytes r va 64
    let n := Nat.max 64 (imageNum head 8 4)
    if !s.frontRange r va n .read then .error 1
    else
      let bs := s.frontBytes r va n
      let i := readImage bs
      let p := s.part r.part
      let tree := (s.ctx r.src).tjob.bind fun j => s.tjobs.get? j
      let zeroed := bs.take 0x18 ++ [0, 0, 0, 0] ++ bs.drop 0x1C
      if imageNum bs 0 4 ≠ 0x47344A42 ∨ imageNum bs 6 2 ≠ 1 then .error 2
      else if !imageMbz bs then .error 3
      else if i.pipes ≠ (setBits 192 r.mask).length ∨ 2 ^ 192 ≤ r.mask then .error 4
      else if !imageLong bs then .error 5
      else if (crc32c (zeroed.take i.length)).toNat ≠ imageNum bs 0x18 4 then .error 6
      else if i.maxgap = 0 ∨ (tree.any fun t => decide (t.maxgap < i.maxgap)) then .error 7
      else if !imageLimits bs then .error 8
      else if (i.compat && (i.heavy == 0 || decide (24 < i.heavy))) || (!i.compat && i.heavy != 0) then .error 9
      else if !p.formed ∨ (i.aligned && p.group.isNone) then .error 10
      else if i.rdv.toNat % 8 ≠ 0 ∨ !s.frontRange r i.rdv.toNat 32 .write then .error 11
      else .ok bs

/-! ## JOB and its acceptance (R104, R332) -/

/-- The cycles within which the front answers a request: 40 + LENGTH ÷ 64 of its image (R104). -/
def State.answerBound (s : State) (r : JobReq) : Nat :=
  40 + (if s.frontRange r r.image.toNat 64 .read then imageNum (s.frontBytes r r.image.toNat 64) 8 4 / 64 else 0)

/-- JOB: a release at package scope, then the request (R34, R104). -/
def jobRequest (s : State) (d : Reg) (k : BitVec 3) (rel : Bool) : Out :=
  whenDrained s true fun s =>
    let r : JobReq :=
      { src := s.tf, part := s.myPart k.toNat, rel := rel, image := s.reg d, mask := s.jobMask d,
        stamp := s.reg (d + 4) }
    .next ((s.park s.tf (.reply (s.reg d) 0)).within (s.answerBound r) .jobAccept (.request r))

/-- JOB (R104); rd above w11 names no five registers. -/
def execJob (g : Guard) (d : Reg) (k : BitVec 3) (s : State) : Out :=
  if 11 < d.toNat then illegal s else guarded g 4 s fun s => jobRequest s d k false

/-- JOB.rel (R104). -/
def execJobRel (g : Guard) (d : Reg) (k : BitVec 3) (s : State) : Out :=
  if 11 < d.toNat then illegal s else guarded g 4 s fun s => jobRequest s d k true

/-- The pipes that a request names. -/
def requestPipes (r : JobReq) : List PipeRef := (setBits 192 r.mask).map fun p => ⟨r.part.dev, p⟩

/-- The jobs that run, or stand frozen, on the pipes that a request names. -/
def State.victims (s : State) (r : JobReq) : List Nat := ((requestPipes r).filterMap fun p => (s.pipe p).job).eraseDups

/-- The queue priority of a thread job; a context of the Phoub column has none (R332, R356). -/
def State.prioOf (s : State) (j : Option Nat) : Option Nat := (j.bind fun j => s.tjobs.get? j).map fun t => t.prio

/-- Whether a request may displace a job (R332). -/
def State.mayDisplace (s : State) (r : JobReq) (j : Nat) : Bool :=
  match s.jobs.get? j with
  | none => false
  | some v =>
    if v.state = .frozen then true
    else
      !v.aligned && (match s.prioOf (s.ctx r.src).tjob, s.prioOf v.tjob with
        | some a, some b => decide (b < a)
        | _, _ => false)

/-- Whether a request waits at the front for its victims (R332). -/
def State.requested (s : State) (r : JobReq) : Bool := (s.part r.part).requests.any fun e => e.2.1 == r

/-- The victims that a request at the front waits for. -/
def State.awaited (s : State) (r : JobReq) : List Nat :=
  (((s.part r.part).requests.find? fun e => e.2.1 == r).map fun e => e.2.2).getD []

/-- Whether a pipe holds a suspended job that keeps a request off it: any but one that has stopped for this request and whose pipe
no job has taken since (R332). -/
def State.holdsSuspended (s : State) (r : JobReq) (x : PipeRef) : Bool :=
  match (s.pipe x).suspended with
  | some j => (s.pipe x).job.isSome || !(s.awaited r).contains j
  | none => false

/-- Whether a named pipe holds a suspended job (R332), or a further pipe of a job to be displaced does, which could not hold two.
[log 106] -/
def State.pipeTaken (s : State) (r : JobReq) : Bool :=
  (requestPipes r ++ ((s.victims r).filterMap fun j => (s.jobs.get? j).map Job.refs).flatten).any (s.holdsSuspended r)

/-- The reason code with which the front refuses a request, if it does (Table of R104). A request whose victims have
stopped finds them suspended. -/
def State.refusal (s : State) (r : JobReq) (start : Nat) : Option Nat :=
  let p := s.part r.part
  if ((requestPipes r).any fun x => !p.clusters.contains (x.p / 24)) then some 1
  else if start < p.pcc + 64 then some 2
  else if s.victims r ≠ [] ∨ s.pipeTaken r then some 3
  else none

/-- The start stamp of a request accepted now. -/
def State.startOf (s : State) (r : JobReq) : Nat := if r.rel then (s.part r.part).pcc + r.stamp.toNat else r.stamp.toNat

/-- A stream at job start: a length of 0 does not start it and counts as joined (Table 16, R126). -/
def startStream (bs : List Byte) (i : Nat) (e : Engine) : Stream :=
  let (len, off) := imageCode bs i e
  { Stream.reset with
    started := len != 0, code := (List.range len).map fun k => BitVec.ofNat 16 (imageNum bs (off + 2 * k) 2) }

/-- A pipe at job start: its settings are those of a pipe on which no job ran (R126 to R136). -/
def Pipe.startJob (p : Pipe) (j : Nat) : Pipe :=
  { p with
    job := some j, ctabs := [], fmtq := [], scaleW := 0x3F800000, scaleA := 0x3F800000, anchor := none, live := [],
    conflicts := 0, slip := 0, pptAt := none, seqEnded := false, awaits := [], tagRanges := [], latest := [], budgetHeld := false }

/-- Accepts a request: the job runs on its pipes and claims no bank (R34, R104, R197). -/
def State.acceptJob (s : State) (r : JobReq) (bs : List Byte) (start : Nat) : State :=
  let i := readImage bs
  let (la, lw) := latencies (leastShare (s.dev r.part.dev).slotmap)
  let c := s.ctx r.src
  let (j, s1) := s.number
  let v : Job :=
    { part := r.part, src := r.src, tjob := c.tjob, space := c.space, prio := (s.prioOf c.tjob).getD 0,
      pipes := setBits 192 r.mask, start := start, maxgap := i.maxgap, rdv := i.rdv, latA := la, latW := lw,
      aligned := i.aligned, compat := i.compat, heavy := i.heavy, shapes := i.shapes, oases := i.oases,
      segtabs := i.segtabs, windows := [], postAt := [], past := [], selectors := [], state := .running, milestones := [], fault := none,
      recorded := false, images := [], wanted := false, stopAt := 0, savedAt := none, conflicts := 0,
      budgetHolds := 0 }
  let s2 : State := { s1 with jobs := s1.jobs.put j v }
  (requestPipes r).zipIdx.foldl (fun st x =>
    let st1 := st.modPipe x.1 fun p => p.startJob j
    engines.foldl (fun st e => st.modStream ⟨x.1, e⟩ fun _ => startStream bs x.2 e) st1) s2

/-- Takes a request off the front's list. The jobs that it waited for need stop no longer, unless another request waits for
them (R333). -/
def State.dropRequest (s : State) (r : JobReq) : State :=
  let s1 := s.modPart r.part fun p => { p with requests := p.requests.filter fun e => e.2.1 != r }
  (s.awaited r).foldl (fun st j => st.modJob j fun v =>
    { v with wanted := v.wanted && (st.part r.part).requests.any fun e => e.2.2.contains j }) s1

/-- Whether a write of SYS.SLOTMAP that lowers a share waits on a device (R196). -/
def State.loweringWaits (s : State) (d : Nat) : Bool :=
  ((s.dev d).slotWait.map fun c => c.pending).getD false

/-- JOB_ACCEPT (R104, R196, R332, R334): a request reaches the front, which checks its image; it waits for the jobs it displaces
to stop, and is refused or accepted. [log 46] -/
def execJobAccept (s0 : State) : Out :=
  match s0.ev with
  | .request r =>
    let s : State := { s0 with tf := r.src }
    if s.loweringWaits r.part.dev then .next (s.dueAt (s.wcc + 1) .jobAccept (.request r))
    else
      match s.imageCheck r with
      | .error n => .next ((s.dropRequest r).trap 22 n r.image)
      | .ok bs =>
        let vs := s.victims r
        let inPart := !((requestPipes r).any fun x => !(s.part r.part).clusters.contains (x.p / 24))
        if vs ≠ [] ∧ inPart ∧ !s.pipeTaken r ∧ vs.all (s.mayDisplace r) then
          let s1 := vs.foldl (fun st j => st.modJob j fun v => { v with wanted := true }) s
          let more := vs.filter fun j => !(s.awaited r).contains j
          .next (s1.modPart r.part fun p =>
            { p with requests :=
                if s.requested r then p.requests.map fun e => if e.2.1 = r then (e.1, r, e.2.2 ++ more) else e
                else p.requests ++ [(p.pcc, r, vs)] })
        else
          let s1 := s.dropRequest r
          match s.refusal r (s.startOf r) with
          | some n => .next (s1.trap 23 n r.image)
          | none => .next ((s1.acceptJob r bs (s.startOf r)).retire 4)
  | _ => .next s0

/-- DISPLACEMENT_TIMEOUT (R332): a victim has reached no stop point within MAXGAP + H plane cycles. -/
def execDisplacementTimeout (s : State) : Out :=
  match s.ev with
  | .request r =>
    if s.requested r then
      .next (({ s.dropRequest r with tf := r.src } : State).trap 23 3 r.image)
    else .next s
  | _ => .next s

/-! ## Stopping and resuming (R333, R334, R337) -/

/-- The banks of a job become free, with the job's space as the last owner's (R125, R335). A claim under way runs to its
end. -/
def State.freeBanks (s : State) (j : Nat) (space : BitVec 16) : State :=
  { s with pipes := s.pipes.map fun e =>
      (e.1, { e.2 with owners := e.2.owners.map fun o =>
        if o.2.job = some j then (o.1, { o.2 with job := none, last := some space }) else o }) }

/-- The job leaves its pipes; its streams stop. -/
def State.leavePipes (s : State) (j : Nat) (v : Job) : State :=
  v.refs.foldl (fun st p =>
    if (st.pipe p).job = some j then
      engines.foldl (fun st e => st.modStream ⟨p, e⟩ fun _ => Stream.reset) (st.modPipe p fun x => { x with job := none })
    else st) s

/-- A job that was suspended is so no longer, and its small state is gone. -/
def State.forgetSuspended (s : State) (j : Nat) (v : Job) : State :=
  v.refs.foldl (fun st p => st.modPipe p fun x =>
    if x.suspended = some j then { x with suspended := none, saved := none } else x) s

/-- What the front saves of a pipe (R334). -/
def State.smallState (s : State) (p : PipeRef) : SmallState :=
  let x := s.pipe p
  { streams := engines.map fun e => s.stream ⟨p, e⟩, fmtq := x.fmtq, scaleW := x.scaleW, scaleA := x.scaleA,
    anchor := x.anchor, ctabs := x.ctabs, live := x.live, awaits := x.awaits, tagRanges := x.tagRanges, latest := x.latest,
    pptAt := x.pptAt, seqEnded := x.seqEnded, conflicts := x.conflicts, slip := x.slip }

/-- The small state stands in the pre-emption area (R334): 8 KiB for each pipe, at offset 0x70_0000 of its part. Its layout is
private, so the bytes are open. [log 97] -/
def State.writeSmall (s : State) (v : Job) : State :=
  v.refs.foldl (fun st p =>
    let base := (st.dev p.dev).config.prebase + 0x800000 * p.p + 0x700000
    let bs : List Byte := (List.range 8192).map fun i => BitVec.ofNat 8 (Config.choice (st.fresh + i))
    { st.dramSet p.dev base bs with fresh := st.fresh + 8192 }) s

/-- VICTIM_STOP (R333, R334): the job stops; its small state is written within 256 cycles, which the event's second form does.
A frozen victim leaves its pipes and its banks. -/
def execVictimStop (s : State) : Out :=
  match s.ev with
  | .jobWord j _ =>
    match s.jobs.get? j with
    | none => .next s
    | some v =>
      if v.state = .suspended ∧ v.savedAt.isNone then
        .next ((s.writeSmall v).modJob j fun v => { v with savedAt := some s.wcc })
      else .next s
  | .job j =>
    match s.jobs.get? j with
    | none => .next s
    | some v =>
      if v.state = .frozen then
        .next (((s.modJob j fun v => { v with wanted := false }).freeBanks j v.space).leavePipes j v)
      else if v.state = .running ∧ v.wanted ∧ v.fault.isNone then
        let T := match v.refs with
          | p :: _ => s.clock v p
          | [] => 0
        let s2 := v.refs.foldl (fun st p =>
          st.modPipe p fun x => { x with saved := some (s.smallState p), suspended := some j }) s
        .next (((s2.modJob j fun v =>
          { v with state := .suspended, wanted := false, stopAt := T, savedAt := none }).leavePipes j v).within 256 .victimStop
            (.jobWord j 0))
      else .next s
  | _ => .next s

/-- Shifts a stream's stamps at resume (R337). -/
def Stream.shift (t : Stream) (d : Int) : Stream :=
  { t with
    bias := t.bias + d, bound := t.bound.map fun b => (b + d).toNat, owed := t.owed.map fun x => (x.1, (x.2 + d).toNat),
    dec := match t.dec with
      | .launch w x => .launch w (x + d).toNat
      | .entry i o => .entry i (o + d).toNat
      | x => x }

/-- Restores a pipe's small state, its stamps shifted by D (R337). -/
def State.restore (s : State) (j : Nat) (v : Job) (d : Int) (pcc : Nat) (p : PipeRef) : State :=
  match (s.pipe p).saved with
  | none => s
  | some x =>
    let shift (n : Nat) : Nat := (n + d).toNat
    let s1 := s.modPipe p fun y =>
      { y with
        job := some j, suspended := none, saved := none, fmtq := x.fmtq, scaleW := x.scaleW, scaleA := x.scaleA,
        anchor := x.anchor, ctabs := x.ctabs, live := x.live, awaits := x.awaits.map fun e => (e.1, (shift e.2.1, e.2.2)),
        tagRanges := x.tagRanges, latest := x.latest, pptAt := some (shift (x.pptAt.getD v.start)), seqEnded := x.seqEnded,
        conflicts := x.conflicts, slip := if v.compat then x.slip + (pcc - v.stopAt) else x.slip,
        budgetHeld := false,
        ops := y.ops.map fun o => if o.2.job = j then (o.1, { o.2 with deadline := shift o.2.deadline }) else o }
    (List.zip engines x.streams).foldl (fun st e => st.modStream ⟨p, e.1⟩ fun _ => e.2.shift d) s1

/-- Whether a suspended job may resume: its small state is written, its pipes are free, and no request stands before the
front for them (R334, R337). -/
def State.mayResume (s : State) (v : Job) : Bool :=
  v.state == .suspended && v.savedAt.isSome
    && v.refs.all (fun p => (s.pipe p).job.isNone)
    && !(s.part v.part).requests.any fun e => (requestPipes e.2.1).any fun p => v.refs.contains p

/-- JOB_RESUME (R337): D = P + 64 − T. -/
def execJobResume (s : State) : Out :=
  match s.ev with
  | .job j =>
    match s.jobs.get? j with
    | none => .next s
    | some v =>
      if !s.mayResume v then .next s
      else
        let pcc := (s.part v.part).pcc
        let d : Int := (pcc : Int) + 64 - v.stopAt
        let shift (n : Nat) : Nat := (n + d).toNat
        let s1 := s.modJob j fun v =>
          { v with
            state := .running, savedAt := none,
            windows := v.windows.map fun e => (e.1, { e.2 with openAt := shift e.2.openAt, closeAt := shift e.2.closeAt })
            past := v.past.map fun e => (e.1, { e.2 with openAt := shift e.2.openAt, closeAt := shift e.2.closeAt }) }
        let s2 := s1.modPart v.part fun p =>
          { p with holds := p.holds.map fun h => if h.job = j then { h with d := shift h.d, f := shift h.f } else h }
        .next (v.refs.foldl (fun st p => st.restore j v d pcc p) s2)
  | _ => .next s

/-! ## Completion and the fault record (R125, R185, R331) -/

/-- Whether a job has an operation in flight on any pipe. -/
def State.jobBusy (s : State) (j : Nat) : Bool := s.pipes.any fun e => e.2.ops.any fun o => o.2.job == j

/-- Whether a job has completed (R125). -/
def State.jobFinished (s : State) (j : Nat) (v : Job) : Bool :=
  v.state == .running && decide (v.start ≤ (s.part v.part).pcc) && v.milestones.isEmpty && v.fault.isNone
    && v.refs.all (fun p => engines.all fun e =>
        let t := s.stream ⟨p, e⟩
        !t.started || t.dec == .ended)
    && !s.jobBusy j

/-- Stores words of the job's record, each at its address; none when the record's translation fails (R185). -/
def State.storeRecord (s : State) (v : Job) (ws : List (Nat × Nat)) : Option State :=
  let va := v.rdv.toNat
  if va + 32 ≤ deviceEnd ∧ s.rangeOk v.part.dev v.space va .write 1 false (pagesOf va 32) then
    ws.foldl (fun st w => st.bind fun st => st.virtStore v.part.dev v.space 1 (va + w.1) 8 w.2) (some s)
  else none

/-- The queue of a job's thread job freezes with cause job-fault (R185, R331, R349). -/
def State.jobFaultFreeze (s : State) (v : Job) : State :=
  match v.tjob with
  | none => s
  | some n =>
    match s.tjobs.get? n with
    | none => s
    | some t => (s.modTJob n fun t => { t with state := .jobFault }).freezeQueue t.dev t.queue 6 (.tjob n)

/-- Whether the lines of a job's record move under an interleave change: the front's stores wait (R313). -/
def State.recordMoves (s : State) (v : Job) : Bool := s.storeMoves v.part.dev v.space 1 v.rdv.toNat 32

/-- JOB_COMPLETE (R125, R185). The job's hold declarations stand for as long as they hold (R192). -/
def execJobComplete (s : State) : Out :=
  match s.ev with
  | .job j =>
    match s.jobs.get? j with
    | none => .next s
    | some v =>
      if !s.jobFinished j v ∨ s.recordMoves v then .next s
      else
        let s1 := (s.freeBanks j v.space).leavePipes j v
        match s1.storeRecord v [(16, v.conflicts), (24, v.budgetHolds), (0, 0)] with
        | some s2 => .next { s2 with jobs := s2.jobs.drop j }
        | none => .next ((s1.modJob j fun v => { v with state := .done }).jobFaultFreeze v)
  | _ => .next s

/-- The fault word (Table 9 of R331). -/
def StreamFault.word (f : StreamFault) : Nat :=
  2 ^ 63 + f.code * 2 ^ 56 + f.pipe * 2 ^ 48 + f.stream * 2 ^ 45 + f.detail * 2 ^ 40 + f.pcc % 2 ^ 40

/-- JOB_FAULT_RECORD (R331): once the operations in flight of a frozen job have completed. -/
def execJobFaultRecord (s : State) : Out :=
  match s.ev with
  | .job j =>
    match s.jobs.get? j with
    | none => .next s
    | some v =>
      match v.fault with
      | none => .next s
      | some f =>
        if v.state ≠ .frozen ∨ v.recorded ∨ s.jobBusy j ∨ v.milestones ≠ [] ∨ s.recordMoves v then .next s
        else
          let s1 := s.modJob j fun v => { v with recorded := true }
          .next (((s1.storeRecord v [(8, f.word), (16, v.conflicts), (24, v.budgetHolds)]).getD s1).jobFaultFreeze v)
  | _ => .next s

/-- A timed job is dissolved: it ends where it stands, with what it has in flight, its holds are withdrawn, and its banks are
free (R335, R349). -/
def State.dissolveJob (s : State) (j : Nat) : State :=
  match s.jobs.get? j with
  | none => s
  | some v =>
    let s1 := ((s.freeBanks j v.space).leavePipes j v).releaseHolds fun h => h.job == j
    let s2 := v.refs.foldl (fun st p => st.modPipe p fun x => { x with ops := x.ops.filter fun o => o.2.job != j })
      (s1.forgetSuspended j v)
    { s2 with jobs := s2.jobs.drop j }

/-! ## Ends of bank claims (R335 to R337) -/

/-- Where a pipe's image of a bank byte stands in the pre-emption area (R334). -/
def imageOffset (b : Buf) (off : Nat) : Nat :=
  match b with
  | .w => off
  | .a => 0x180000 + off
  | .c => 0x300000 + off

/-- The physical address of a byte of a pipe's part of the pre-emption area. -/
def State.imageAddr (s : State) (b : BankRef) (off : Nat) : Nat :=
  (s.dev b.pipe.dev).config.prebase + 0x800000 * b.pipe.p + imageOffset b.buf off

/-- The runs of a bank: offset in the buffer and length. -/
def bankRuns (b : BankRef) : List (Nat × Nat) :=
  match b.buf with
  | .w => [(b.n * 2 ^ 17, 2 ^ 17)]
  | .a => (List.range 768).map fun k => ((k * 32 + b.n) * 64, 64)
  | .c => (List.range 256).map fun k => ((k * 16 + b.n) * 1024, 1024)

/-- Clears a bank to zero. -/
def State.bankZero (s : State) (b : BankRef) : State :=
  match b.buf with
  | .w => { s with wbuf := s.wbuf.clear (bufBase b.pipe + b.n * 2 ^ 17) (2 ^ 17) }
  | .a =>
    let s1 := s.modPipe b.pipe fun p => { p with sbuf := p.sbuf.filter fun l => l.line % 32 != b.n }
    { s1 with abuf := s1.abuf.filter fun c =>
        !(decide (bufBase b.pipe ≤ c.1) && decide (c.1 < bufBase b.pipe + bufSize .a) && (c.1 - bufBase b.pipe) / 64 % 32 == b.n) }
  | .c =>
    { s with slots := s.slots.filter fun c => !(c.1 / 2 ^ 17 == b.pipe.code && c.1 % 2 ^ 17 / 32 % 16 == b.n) }

/-- The claim that a pipe serves is over: accesses proceed and the hold that it declared is released. -/
def State.endClaim (s : State) (c : BankClaim) : State :=
  (s.modPipe c.bank.pipe fun p => { p with claims := p.claims.erase c, claimEnd := s.wcc }).releaseHolds
    fun h => h.cause == .bank c.bank && h.job == c.job

/-- The claim that a pipe serves now, if it can end: its time has come, and nothing of another job touches the bank (R336). -/
def State.claimDue (s : State) (p : PipeRef) : Option BankClaim :=
  match (s.pipe p).claims with
  | [] => none
  | c :: _ => if c.ends (s.pipe p).claimEnd ≤ s.wcc ∧ !s.bankTouched c.bank then some c else none

/-- An end of a bank claim of a kind, where it is due. -/
def claimEnds (s : State) (kind : ClaimKind) (f : BankClaim → State) : Out :=
  match s.ev with
  | .bank b =>
    match s.claimDue b.pipe with
    | some c => .next (if c.bank = b ∧ c.kind = kind then (f c).endClaim c else s)
    | none => .next s
  | _ => .next s

/-- BANK_CLEAR_END (R335): the clearing of a bank is over, and it reads zero. -/
def execBankClearEnd (s : State) : Out := claimEnds s .clear fun c => s.bankZero c.bank

/-- The suspended job whose image a pipe's banks are written to. -/
def State.suspendedOn (s : State) (p : PipeRef) : Option (Nat × Job) :=
  (s.pipe p).suspended.bind fun j => (s.jobs.get? j).map fun v => (j, v)

/-- A bank is written raw to the image of a job, which counts it among its images (R334, R336). -/
def State.writeImage (s : State) (j : Nat) (b : BankRef) : State :=
  let s1 := (bankRuns b).foldl (fun st r =>
    { st with dram := st.dram.setBytes (dramAddr b.pipe.dev (s.imageAddr b r.1)) (s.bufGet b.pipe b.buf r.1 r.2) }) s
  s1.modJob j fun v => { v with images := v.images ++ [(b.pipe.code, bankCode b.buf b.n)] }

/-- BANK_WRITE_OUT_END (R334 to R336): the victim's bank is in its image; for the newcomer it reads zero. -/
def execBankWriteOutEnd (s : State) : Out :=
  claimEnds s .writeOut fun c =>
    (match c.victim with
      | some j => s.writeImage j c.bank
      | none => s).bankZero c.bank

/-- A bank is filled from the image of a job, which counts it among its images no longer (R337). -/
def State.fillImage (s : State) (j : Nat) (b : BankRef) : State :=
  let s1 := (bankRuns b).foldl (fun st r =>
    st.bufSet b.pipe b.buf r.1 (s.dram.getBytes (dramAddr b.pipe.dev (s.imageAddr b r.1)) r.2)) s
  s1.modJob j fun v => { v with images := v.images.filter fun x => x != (b.pipe.code, bankCode b.buf b.n) }

/-- BANK_FILL_END (R337). The bank of a job that is no more is left zero. -/
def execBankFillEnd (s : State) : Out :=
  claimEnds s .fill fun c => if (s.jobs.get? c.job).isSome then s.fillImage c.job c.bank else s.bankZero c.bank

/-! ## Partitions (R66, R181, R183, R294) -/

/-- The jobs of a partition. -/
def State.jobsOf (s : State) (k : PartRef) : List Nat := (s.jobs.filter fun e => e.2.part == k).map fun e => e.1

/-- PARTITION_FORM (R181): 1 to 8 whole clusters that lie in no other partition; its PCC is 0. -/
def execPartitionForm (s : State) : Out :=
  match s.ev with
  | .form k cs =>
    let taken := (List.range 8).any fun i =>
      (s.part ⟨k.dev, i⟩).formed && (s.part ⟨k.dev, i⟩).clusters.any fun c => cs.contains c
    if (s.part k).formed ∨ taken ∨ cs = [] ∨ 8 ≤ k.k ∨ cs.any (fun c => decide (8 ≤ c)) then .next s
    else .next (s.modPart k fun _ => { Partition.reset with formed := true, clusters := cs })
  | _ => .next s

/-- An alignment ends: its members' PCCs hold together no longer (R294). -/
def State.dealign (s : State) (g : Nat) : State :=
  let s1 := ((s.groups.get? g).getD []).foldl (fun st m => st.modPart m fun p => { p with group := none }) s
  { s1 with groups := s1.groups.drop g }

/-- A context whose WAITC waits for a partition that is dissolved traps (R66). -/
def State.trapWaiters (s : State) (k : PartRef) : State :=
  s.ctxs.foldl (fun st e =>
    match e.2.mode with
    | .waiting (.counter (some i) _) =>
      let t := CtxRef.ofCode e.1
      if (⟨s.memDev t, i⟩ : PartRef) = k ∧ !e.2.suspended then { st with tf := t }.trap 12 0 0 else st
    | _ => st) s

/-- PARTITION_DISSOLVE (R66, R181, R294): its jobs are dissolved, its WAITC waiters trap, its alignment ends. -/
def execPartitionDissolve (s : State) : Out :=
  match s.ev with
  | .part k =>
    if !(s.part k).formed then .next s
    else
      let s1 := (s.jobsOf k).foldl (fun st j => st.dissolveJob j) s
      let s2 := match (s.part k).group with
        | some g => s1.dealign g
        | none => s1
      .next ((s2.modPart k fun _ => Partition.reset).trapWaiters k)
  | _ => .next s

/-- ALIGN_PARTITIONS (R183, R294): in wall cycle W0 every member sets PCC := P0. At most one member per package, no job on
any, and P0 no smaller than any member's PCC. -/
def execAlignPartitions (s : State) : Out :=
  match s.ev with
  | .align ms p0 =>
    let once := (ms.map fun m => m.dev).Nodup
    let ok := ms.all fun m =>
      (s.part m).formed && (s.part m).group.isNone && decide ((s.part m).pcc ≤ p0) && (s.jobsOf m).isEmpty
    if ms = [] ∨ !decide once ∨ !ok ∨ 2 ^ 64 ≤ p0 then .next s
    else
      let (g, s1) := s.number
      let s2 := ms.foldl (fun st m => st.modPart m fun p => { p with group := some g, pcc := p0 }) s1
      .next { s2 with groups := s2.groups.put g ms }
  | _ => .next s

/-- Whether a hold in partition k has been declared by one of some members, itself or by its notice (R293, R294). -/
def Hold.declaredBy (h : Hold) (k : PartRef) (lost : List PartRef) : Bool :=
  match h.cause with
  | .remote m => lost.contains m
  | _ => lost.contains k

/-- Members of a group are lost: the jobs with ALIGNED set on the others freeze with align-lost, every hold that a lost
member declared is released, and the alignment is dissolved (R294). -/
def State.loseMembers (s : State) (g : Nat) (lost : List PartRef) : State :=
  let ms := (s.groups.get? g).getD []
  let rest := ms.filter fun m => !lost.contains m
  let s1 := rest.foldl (fun st m => (st.jobsOf m).foldl (fun st j =>
    match st.jobs.get? j with
    | some v => if v.aligned then st.raise j 0 7 24 0 else st
    | none => st) st) s
  let s2 := ms.foldl (fun st m => st.modPart m fun p =>
    { p with holds := p.holds.map fun h =>
        if h.declaredBy m lost then { h with release := some (h.release.getD s.wcc) } else h }) s1
  s2.dealign g

/-- PARTITION_DEALIGN (R294): by the fabric manager, or because members are lost. -/
def execPartitionDealign (s : State) : Out :=
  match s.ev with
  | .group g lost => .next (if lost = [] then s.dealign g else s.loseMembers g lost)
  | _ => .next s

end Sys2Proof.Machine
end

