-- ==== Sys2Proof/Machine/Windows.lean ====
section
/-! DEFINITION. Oasis windows: POST and its judgement (R103, R176 to R180), the close (R3, R187), holds (R192), segment redirects
(R188 to R190), MAXGAP (R124), thread accesses to mapped ranges and the oasis store buffer (R76, R270). -/

namespace Sys2Proof.Machine

/-! ## POST (R103, R176) -/

/-- POST: a release at package scope, then the post. An address that lies in no pipe's window has no post slot either: oasis-refused,
as the steps of R103 say, and not address-fault. [log 107] -/
def execPost (g : Guard) (a b : Reg) (s : State) : Out :=
  guarded g 4 s fun s => whenDrained s true fun s =>
    let va := s.reg a
    if !aligned va 8 then trapOut s 2 va
    else
      match s.classify s.tf va with
      | .window p none off =>
        let r : PostReq :=
          { src := s.tf, space := s.me.space, pipe := p, record := off / 128, slot := off % 128 / 8, value := s.reg b,
                        reached := none }
        .next ((s.park s.tf (.pipe none)).within (pipeBound s.tf.core p) .postArrival (.post r))
      | _ => trapOut s 14 va

/-- Whether a slot exists in a job (R176): the record has been armed in an earlier cycle, and the slot is declared. -/
def State.slotOf (s : State) (v : Job) (r : PostReq) : Option (Window × SlotDecl) :=
  match v.windows.get? r.record, v.oases[r.record]? with
  | some w, some o =>
    match o.slots[r.slot]? with
    | some d => if w.armedAt < s.wcc then some (w, d) else none
    | none => none
  | _, _ => none

/-- The jobs whose slots a pipe's window addresses: the one that runs there, and one suspended from it (R334). -/
def State.postJobs (s : State) (p : PipeRef) : List (Nat × Job) :=
  ([(s.pipe p).job, (s.pipe p).suspended].filterMap id).filterMap fun j =>
    match s.jobs.get? j with
    | some v => if v.state = .running ∨ v.state = .suspended then some (j, v) else none
    | none => none

/-- The post is accepted as a slot's value; accepted when the close has fixed the values, it fixes its own and, once no slot of
the window lacks one, releases the haboob (R103, R179). -/
def State.acceptPost (s : State) (j : Nat) (r : PostReq) (w : Window) : State :=
  let x := r.value.toNat % 2 ^ 32
  let posted := w.posted.set r.slot (some x)
  let fixed := if w.closed then w.fixed.set r.slot (some x) else w.fixed
  let selects := w.sel == r.slot
  let w1 := { w with posted := posted, fixed := fixed, lateAt := if w.closed && selects then some s.wcc else w.lateAt }
  let s1 := s.modJob j fun v => { v with windows := v.windows.put r.record w1 }
  if w.closed ∧ fixed.all Option.isSome then s1.releaseHolds fun h => h.cause == .close j r.record else s1

/-- Whether a post that reached its slot at a PCC is late (R177); while the job is suspended, only a window that it closed before is
closed (R334). -/
def Window.lateFor (w : Window) (v : Job) (reached : Nat) : Bool :=
  if v.state = .running then decide (w.closeAt ≤ reached) else w.closed

/-- What a slot answers, and the state after it has judged the post, which reached it at a PCC (R103, R176, R177). -/
def State.judge (s : State) (j : Nat) (v : Job) (r : PostReq) (w : Window) (d : SlotDecl) (reached : Nat) : PostVerdict × State :=
  if d.bound < r.value.toNat then (.bound, s)
  else if ((w.posted[r.slot]?).join).isSome then (.repeated, s)
  else if !w.lateFor v reached then (.ack, s.acceptPost j r w)
  else if d.stall && w.closed && (w.value r.slot).isNone then (.ack, s.acceptPost j r w)
  else (.closed, s)

/-- The job whose slot a post names, through the window of any of the job's pipes (R103), with the slot. -/
def State.postTarget (s : State) (r : PostReq) : Option ((Nat × Job) × Window × SlotDecl) :=
  (s.postJobs r.pipe).findSome? fun e => if e.2.space = r.space then (s.slotOf e.2 r).map fun y => (e, y) else none

/-- Whether a slot's port has taken its one post of the cycle (R176). -/
def Job.portTook (v : Job) (r : PostReq) (wcc : Nat) : Bool := v.postAt.get? (16 * r.record + r.slot) == some wcc

/-- POST_ARRIVAL (R103, R176, R177): a post reaches its slot, whose port takes it; while the port has taken its post of the cycle it
waits, and is judged by the PCC at which it came. -/
def execPostArrival (s : State) : Out :=
  match s.ev with
  | .post r =>
    let reply (x : PostVerdict × State) : Out :=
      .next (x.2.within (pipeBound r.src.core r.pipe) .postAck (.verdict r.src x.1))
    match s.postTarget r with
    | none => reply (.refused, s)
    | some ((j, v), (w, d)) =>
      let reached := r.reached.getD (s.part v.part).pcc
      if v.portTook r s.wcc then .next (s.dueAt s.wcc .postArrival (.post { r with reached := some reached }))
      else
        reply ((s.modJob j fun v => { v with postAt := v.postAt.put (16 * r.record + r.slot) s.wcc }).judge j v r w d reached)
  | _ => .next s

/-- POST_ACK (R103). -/
def execPostAck (s : State) : Out :=
  match s.ev with
  | .verdict t x =>
    match (s.ctx t).mode, (s.ctx t).cur with
    | .waiting (.pipe _), some (.post _ a _) =>
      let s := { s with tf := t }
      match x with
      | .ack => .next (s.retire 4)
      | .refused => trapOut s 14 (s.reg a)
      | .bound => trapOut s 15 (s.reg a)
      | .repeated => trapOut s 16 (s.reg a)
      | .closed => trapOut s 17 (s.reg a)
    | _, _ => .next s
  | _ => .next s

/-! ## The close (R3, R178, R187) -/

/-- The selector of a record: the slot that the latest SEGT names, else slot 0. -/
def Job.selector (v : Job) (i : Nat) : Nat := (v.selectors.get? i).getD 0

/-- The segments of a record. -/
def Job.segments (v : Job) (o : OasisRecord) : List Segment :=
  match o.segtab with
  | some t => (v.segtabs[t]?).getD []
  | none => []

/-- OASIS_CLOSE (R3, R178, R187): every slot's value is fixed; a stall-policy slot without a post declares a hold. -/
def execOasisClose (s : State) : Out :=
  match s.ev with
  | .jobRecord j i =>
    match s.jobs.get? j with
    | none => .next s
    | some v =>
      match v.windows.get? i, v.oases[i]? with
      | some w, some o =>
        if w.closed then .next s
        else
          let fixed := (List.zip o.slots w.posted).map fun x =>
            match x.2 with
            | some y => some y
            | none => if x.1.stall then none else some x.1.default
          let s1 := s.modJob j fun v => { v with windows := v.windows.put i { w with closed := true, fixed := fixed, sel := v.selector i } }
          let s2 := if fixed.all Option.isSome then s1 else s1.declare v.part j w.closeAt (.close j i)
          let bad : Bool := o.segtab.isSome && v.selector i == 0 && (match o.slots with
            | d :: _ => decide ((v.segments o).length ≤ d.bound)
            | [] => false)
          .next (if bad then s2.raise j 0 7 16 0 else s2)
      | _, _ => .next s
  | _ => .next s

/-! ## Holds (R179, R192) -/

/-- HOLD_ONSET (R192): the partition's current wall cycle is held. -/
def execHoldOnset (s : State) : Out :=
  match s.ev with
  | .part k => .next (if s.holdsNow k then s.modPart k fun p => { p with held := true } else s)
  | _ => .next s

/-- HABOOB_END (R179, R192): from max(a + H, f) the PCC moves on. -/
def execHaboobEnd (s : State) : Out :=
  match s.ev with
  | .part k => .next (if s.holdsNow k then s else s.modPart k fun p => { p with held := false })
  | _ => .next s

/-! ## Segment redirects (R188 to R190) -/

/-- The arming of a record that opens at a stamp: its latest, or one that a later arming has replaced (R188). -/
def Job.arming (v : Job) (i o : Nat) : Option Window :=
  match v.windows.get? i with
  | some w => if w.openAt = o then some w else (v.past.find? fun x => x.1 == i && x.2.openAt == o).map fun x => x.2
  | none => none

/-- Whether a stream that waits at entry(0) of a window may resume at entry(v) now (R188). -/
def State.redirectDue (s : State) (v : Job) (p : PipeRef) (w : Window) : Bool :=
  let h := s.horizon v.part
  w.closed && (w.value w.sel).isSome && decide (w.closeAt + h ≤ s.clock v p + 16)
    && (match w.lateAt with
      | some r => decide (r + h ≤ s.wcc + 16)
      | none => true)

/-- SEGMENT_REDIRECT (R188, R189, R190). -/
def execSegmentRedirect (s : State) : Out :=
  match s.ev with
  | .stream x =>
    match (s.stream x).dec, (s.pipe x.pipe).job.bind fun j => s.jobs.get? j with
    | .entry i at_, some v =>
      match v.arming i at_, v.oases[i]? with
      | some w, some o =>
        if !s.redirectDue v x.pipe w then .next s
        else
          let gs := v.segments o
          let g0 := (gs[0]?).getD ⟨0, 0, 0, 0, 0, 0⟩
          let gv := (gs[(w.value w.sel).getD 0]?).getD g0
          let d : Int := (gv.slen : Int) - g0.slen
          .next (s.modStream x fun t =>
            { t with
              pos := gv.entry x.eng, taken := gv.entry x.eng == t.pos, bias := t.bias + d, last := t.last - d, dec := .decoding,
              bound := some (w.closeAt + s.horizon v.part), owed := t.owed.erase (i, at_) })
      | _, _ => .next s
    | _, _ => .next s
  | _ => .next s

/-- Whether a pipe's SEQ has let MAXGAP plane cycles pass without a PPT or HALTJ (R124). A pipe whose SEQ the job does not start
is not checked. [log 95] -/
def State.gapExceeded (s : State) (v : Job) (p : PipeRef) : Bool :=
  let x := s.pipe p
  v.state == .running && (s.stream ⟨p, .seq⟩).started && !x.seqEnded
    && decide ((x.pptAt.getD v.start) + v.maxgap + 1 ≤ s.clock v p)

/-- MAXGAP_EXPIRY (R124). -/
def execMaxgapExpiry (s : State) : Out :=
  match s.ev with
  | .pipe p =>
    match (s.pipe p).job with
    | none => .next s
    | some j =>
      match s.jobs.get? j with
      | none => .next s
      | some v => .next (if s.gapExceeded v p then s.raiseAt j v ⟨p, .seq⟩ 4 4 else s)
  | _ => .next s

/-! ## Thread accesses to mapped ranges (R76, R270) -/

/-- Whether a mapped range of a record allows an access. -/
def OasisRecord.allows (o : OasisRecord) (r : OasisReq) : Bool :=
  (List.range r.size).all fun k => o.maps.any fun m =>
    m.buf == r.buf && (if r.store.isSome then m.wr else m.rd) && decide (m.off ≤ r.off + k) && decide (r.off + k < m.off + m.len)

/-- The job whose open window admits an access, if one does (R76). -/
def State.admits (s : State) (r : OasisReq) : Option (Nat × Job) :=
  match (s.pipe r.pipe).job with
  | none => none
  | some j =>
    match s.jobs.get? j with
    | none => none
    | some v =>
      let c := (s.part v.part).pcc
      let open_ := v.windows.any fun e =>
        e.2.armedBy.contains r.pipe.p && decide (e.2.openAt ≤ c) && decide (c < e.2.closeAt)
          && (match v.oases[e.1]? with
            | some o => o.allows r
            | none => false)
      if v.state = .running ∧ v.space = r.space ∧ open_ then some (j, v) else none

/-- The acting context's mapped access is refused. -/
def oasisRefused (s : State) (r : OasisReq) : Out :=
  match (s.ctx r.src).mode with
  | .waiting (.pipe _) => trapOut { s with tf := r.src } 14 (windowAddr r)
  | _ => .next s

/-- Puts bytes into the oasis store buffer's lines (R270). -/
def bufferBytes (l : List BufferLine) (off : Nat) (bs : List Byte) : List BufferLine :=
  let line := off / 64
  let new := bs.zipIdx.map fun x => (off % 64 + x.2, x.1)
  let merge (old : List (Nat × Byte)) : List (Nat × Byte) :=
    old.filter (fun x => !(new.any fun y => y.1 == x.1)) ++ new
  if l.any fun b => b.line == line then l.map fun b => if b.line == line then { b with bytes := merge b.bytes } else b
  else l ++ [{ line := line, bytes := new }]

/-- Whether the store buffer takes a store: its line is there, or one of the 16 lines is free. -/
def bufferRoom (l : List BufferLine) (off : Nat) : Bool := (l.any fun b => b.line == off / 64) || decide (l.length < 16)

/-- Whether the bank of an access stands claimed and not yet usable (R335, R336); a load that its job's window took waits for that
job's claims. -/
def State.bankClaimed (s : State) (r : OasisReq) : Bool :=
  (s.claimsOf ⟨r.pipe, r.buf, bankOf r.buf r.off⟩).any fun c => match r.job with
    | some j => c.job == j
    | none => true

/-- Whether the pipe can take a store into its store buffer now: its bank's claim is over, and a line has room (R270, R335). -/
def State.canBuffer (s : State) (r : OasisReq) : Bool := !s.bankClaimed r && bufferRoom (s.pipe r.pipe).sbuf r.off

/-- A store reaches or waits at the pipe (R270): its bank is claimed; it is accepted once it can be, or refused at the close. -/
def oasisStore (s : State) (r : OasisReq) (x : Word) : Out :=
  let leave (s : State) : State :=
    s.modPipe r.pipe fun p => { p with waiters := p.waiters.filter fun q => q != r }
  match s.admits r with
  | none => oasisRefused (leave s) r
  | some (j, v) =>
    let s1 := s.claimBank j v none ⟨r.pipe, .a, bankOf .a r.off⟩
    if s1.canBuffer r then
      let s2 := (leave s1).modPipe r.pipe fun p => { p with sbuf := bufferBytes p.sbuf r.off (leBytes r.size x.toNat) }
      match (s2.ctx r.src).mode, ((s2.ctx r.src).cur).bind memForm with
      | .waiting (.pipe _), some f => .next (({ s2 with tf := r.src } : State).endStore f (windowAddr r))
      | _, _ => .next s2
    else if (s.pipe r.pipe).waiters.contains r then .next s1
    else .next (s1.modPipe r.pipe fun p => { p with waiters := p.waiters ++ [r] })

/-- Whether the pipe can serve a waiting load now: its bank's claim is over, and the bank is free or the store buffer
holds the bytes (R198, R270, R336). -/
def State.canServe (s : State) (r : OasisReq) : Bool :=
  !s.bankClaimed r && (s.buffered r.pipe r.buf r.off r.size || s.bankFree r.pipe r.buf r.off)

/-- A waiting load is served, and its reply leaves (R76). -/
def State.serveLoad (s : State) (r : OasisReq) : State :=
  let x := toWord (leNat (s.bufGet r.pipe r.buf r.off r.size))
  let s1 := (if s.buffered r.pipe r.buf r.off r.size then s else s.useBank r.pipe r.buf r.off).modPipe r.pipe fun p =>
    { p with waiters := p.waiters.filter fun q => q != r }
  s1.within (pipeBound r.src.core r.pipe) .threadLoadReply (.access { r with store := some x })

/-- OASIS_ACCESS_ARRIVAL (R76, R270): a thread access reaches the pipe, where it is judged; one that waits there is tried
again. -/
def execOasisAccessArrival (s : State) : Out :=
  match s.ev with
  | .access r =>
    match r.store with
    | some x => oasisStore s r x
    | none =>
      if (s.pipe r.pipe).waiters.contains r then .next (if s.canServe r then s.serveLoad r else s)
      else
        match s.admits r with
        | none => oasisRefused s r
        | some (j, v) =>
          let s1 := s.claimBank j v none ⟨r.pipe, r.buf, bankOf r.buf r.off⟩
          .next (s1.modPipe r.pipe fun p => { p with waiters := p.waiters ++ [{ r with job := some j }] })
  | _ => .next s

/-- The first line of a pipe's store buffer whose bank is free in the current cycle. -/
def State.drainable (s : State) (p : PipeRef) : Option BufferLine :=
  (s.pipe p).sbuf.find? fun l =>
    !(s.pipe p).usedA.contains (bankOf .a (64 * l.line)) && (s.claimsOf ⟨p, .a, bankOf .a (64 * l.line)⟩).isEmpty

/-- OASIS_STORE_BUFFER_DRAIN (R270): a line drains into a free bank cycle. -/
def execOasisStoreBufferDrain (s : State) : Out :=
  match s.ev with
  | .pipe p =>
    match s.drainable p with
    | none => .next s
    | some l =>
      let s1 := s.modPipe p fun x =>
        { x with sbuf := x.sbuf.filter fun m => m.line != l.line, usedA := bankOf .a (64 * l.line) :: x.usedA }
      .next { s1 with
        abuf := l.bytes.foldl (fun m x => m.set (bufBase p + 64 * l.line + x.1) x.2) s1.abuf }
  | _ => .next s

end Sys2Proof.Machine
end

