-- ==== Sys2Proof/Machine/FrontEnd.lean ====
section
/-! DEFINITION. The front end: the queue table (R341), fetching a packet (R275, R343), taking it (R342), retiring it and its
interrupt (R347, R348), thread jobs and the placement of a root (R232 to R235). -/

namespace Sys2Proof.Machine

/-! ## The queue table (R341) -/

/-- Whether the front end of a device serves queues: it is active and has booted (R352, R355). -/
def Device.served (d : Device) : Bool := d.power == 0 && d.bootStatus == 0 && !d.waking

/-- Word k of a queue's descriptor. -/
def State.descWord (s : State) (d q k : Nat) : Word := toWord (s.dramNum d ((s.dev d).config.qbase + 32 * q + 8 * k) 8)

/-- EN of a queue's descriptor. -/
def State.descEnabled (s : State) (d q : Nat) : Bool := wbits (s.descWord d q 1) 61 1 == 1

/-- Whether a queue's descriptor keeps the limits of Table 1. -/
def State.descOk (s : State) (d q : Nat) : Bool :=
  let w0 := s.descWord d q 0
  let w1 := s.descWord d q 1
  let w2 := s.descWord d q 2
  let w3 := s.descWord d q 3
  w0.toNat % 64 == 0 && isDeviceMemory w0 && wbits w1 48 8 == 0 && wbits w1 0 16 == 0 && decide (4 ≤ wbits w1 56 5)
    && decide (wbits w1 56 5 ≤ 16) && wbits w1 32 16 != 0 && w2.toNat % 16 == 0 && isDeviceMemory w2
    && wbits w3 56 8 == 0 && wbits w3 0 2 == 0

/-- The number of queues that a broken descriptor disables (R341, R350). -/
def State.disabledQueues (s : State) (d : Nat) : Nat :=
  ((List.range 64).filter fun q => s.descEnabled d q && !s.descOk d q).length

/-- The front end takes a queue's descriptor as it stands in the queue table. A queue that becomes enabled starts with
sequence number 0 (R343). -/
def State.loadQueue (s : State) (d q : Nat) : State :=
  let w1 := s.descWord d q 1
  if s.descEnabled d q && s.descOk d q then
    s.modQueue d q fun v =>
      let v := if v.en then v else { Queue.reset with state := 0, fetching := v.fetching }
      { v with
        ring := s.descWord d q 0, prio := wbits w1 62 2, en := true, logn := wbits w1 56 5,
        space := BitVec.ofNat 16 (wbits w1 32 16), ctime := wbits w1 16 16, compl := s.descWord d q 2,
        tvec := s.descWord d q 3 }
  else s.modQueue d q fun v => { v with en := false, state := 3 }

/-! ## The head of a ring (R275, R343) -/

/-- The bytes at a queue's head, translated for the front end (master class 4). -/
def State.headBytes (s : State) (d q n : Nat) : Option (List Byte) :=
  let v := s.queue d q
  s.virtGet d v.space 4 (v.ring.toNat + 64 * (v.consumed % 2 ^ v.logn)) n

/-- The 64 bytes at the head, when its validity mark is new. -/
def State.newHead (s : State) (d q : Nat) : Option (List Byte) :=
  match s.headBytes d q 64 with
  | none => none
  | some bs => if imageNum bs 0 4 = (s.queue d q).next % 2 ^ 32 then some bs else none

/-- Whether the head is a packet of 128 bytes. -/
def longHead (bs : List Byte) : Bool := wbits (imageWord bs 0) 55 1 == 1

/-- The whole packet at the head; none for a long one in the ring's last slot, which fails as bad-packet. -/
def State.wholeHead (s : State) (d q : Nat) (bs : List Byte) : Option (List Byte) :=
  let v := s.queue d q
  if longHead bs then
    if v.consumed % 2 ^ v.logn + 1 = 2 ^ v.logn then none else some ((s.headBytes d q 128).getD bs)
  else some bs

/-- Whether a packet's CRC is correct: computed with the CRC field taken as zero. -/
def packetCrcOk (bs : List Byte) : Bool := (crc32c (bs.take 12 ++ [0, 0, 0, 0] ++ bs.drop 16)).toNat == imageNum bs 12 4

/-- The 64-bit words of bytes. -/
def wordsOf (bs : List Byte) : List Word := (List.range (bs.length / 8)).map fun k => imageWord bs (8 * k)

/-- Word k of a packet or of a node record. -/
def wordAt (ws : List Word) (k : Nat) : Word := (ws[k]?).getD 0

/-- Whether words of a record are all zero. -/
def zeroWords (ws : List Word) (from_ n : Nat) : Bool := (List.range n).all fun k => wordAt ws (from_ + k) == 0

/-- The limits of the arguments of COPY, WAIT and SIGNAL (Table 9 of R249), by packet or node words 2 to 7. -/
def copyOk (ws : List Word) : Bool :=
  decide (1 ≤ (wordAt ws 4).toNat) && decide ((wordAt ws 4).toNat ≤ 2 ^ 36) && zeroWords ws 5 3

/-- The limits of WAIT and SIGNAL. -/
def waitOk (ws : List Word) : Bool := aligned (wordAt ws 2) 8 && zeroWords ws 4 4

/-- Whether a packet keeps R343: KIND, SZ, the MBZ fields, the limits of its arguments. -/
def packetOk (ws : List Word) : Bool :=
  let w0 := wordAt ws 0
  let kind := wbits w0 56 8
  let long := wbits w0 55 1 == 1
  wbits w0 32 22 == 0 && wbits (wordAt ws 1) 0 32 == 0 && (!long || kind == 1)
    && (match kind with
      | 1 => wbits (wordAt ws 3) 30 10 == 0 && wordAt ws 7 == 0 && (!long || zeroWords ws 10 6)
      | 2 => zeroWords ws 3 5
      | 3 => copyOk ws
      | 4 => waitOk ws
      | 5 => waitOk ws
      | 6 => zeroWords ws 2 6
      | _ => false)

/-! ## Interrupts (R348) -/

/-- CTIME in cycles of 1.05 GHz. -/
def coalescing (ns : Nat) : Nat := ceilDiv (ns * 21) 20

/-- Sends a message to the world outside. -/
def State.tell (s : State) (m : Outward) : State := { s with outbox := s.outbox ++ [m] }

/-- The interrupt of a queue for the retirements whose records are stored: vector 64g + q (R304, R348). -/
def State.sendInterrupt (s : State) (d q : Nat) : State :=
  (s.modQueue d q fun v => { v with intDue := none }).tell
    (.interrupt (64 * (s.dev d).config.group + q))

/-- Whether a queue is idle: no packet started and unretired, and no valid head. -/
def State.queueIdle (s : State) (d q : Nat) : Bool := (s.queue d q).packets.isEmpty && (s.newHead d q).isNone

/-- A record has been stored: its retirements' interrupt goes at once, at idle, or within CTIME. -/
def State.armInterrupt (s : State) (d q : Nat) : State :=
  let v := s.queue d q
  if !v.intOwed then s
  else
    let s1 := s.modQueue d q fun v => { v with intOwed := false }
    if v.ctime = 0 ∨ s.queueIdle d q then s1.sendInterrupt d q
    else
      match v.intDue with
      | some _ => s1
      | none =>
        let t := s.wcc + coalescing v.ctime
        (s1.modQueue d q fun v => { v with intDue := some t }).dueAt t .interruptSend (.queue d q)

/-- INTERRUPT_SEND (R348). -/
def execInterruptSend (s : State) : Out :=
  match s.ev with
  | .queue d q =>
    match (s.queue d q).intDue with
    | some t => .next (if t ≤ s.wcc ∨ s.queueIdle d q then s.sendInterrupt d q else s)
    | none => .next s
  | _ => .next s

/-! ## Fetching (R275, R342, R351) -/

/-- Whether a started packet keeps the queue's next packet from starting: a WAIT that is not done, a LAUNCH whose root is
not placed (R346). -/
def Packet.blocks (p : Packet) : Bool :=
  p.taken && p.done.isNone && (p.kind == 4 || (p.kind == 1 && !p.started))

/-- The front end begins a fetch of a queue, to end in wall cycle t, and clears its latch bit (R351), unless one is under way,
a packet stands fetched, or the queue is blocked. -/
def State.fetchAt (s : State) (d q t : Nat) : State :=
  let v := s.queue d q
  if !(s.dev d).served || v.fetching || (v.state != 0 && v.state != 3)
      || v.packets.any (fun p => !p.taken || p.blocks) then s
  else
    let s1 := (s.modQueue d q fun v => { v with fetching := true }).modDev d fun x =>
      { x with latch := x.latch &&& ~~~(1 <<< q : BitVec 64) }
    s1.dueAt t .packetFetch (.queue d q)

/-- Begins a fetch, which takes at most 240 cycles (Table 2 of R235). -/
def State.beginFetch (s : State) (d q : Nat) : State :=
  let (k, s1) := s.pick 240
  s1.fetchAt d q (s1.wcc + 1 + k)

/-- A read found the mark old: the fetcher reads again when the wake word changes; an idle queue's interrupt goes. -/
def State.noHead (s : State) (d q : Nat) : State :=
  let s1 := if (s.queue d q).intDue.isSome && s.queueIdle d q then s.sendInterrupt d q else s
  if ((s1.dev d).latch).getLsbD q then s1.beginFetch d q else s1

/-- Read number n (1 to 5) of a queue's head (R275, R343). -/
def State.readHead (s : State) (d q n : Nat) : State :=
  let s0 := s.modQueue d q fun v => { v with fetching := false, refetch := n }
  match s0.newHead d q with
  | none => s0.noHead d q
  | some bs =>
    match s0.wholeHead d q bs with
    | none => s0.freezeQueue d q 1 .none
    | some bs =>
      let ws := wordsOf bs
      if !packetCrcOk bs then
        if 5 ≤ n then s0.freezeQueue d q 2 .none
        else
          (s0.modQueue d q fun v => { v with fetching := true }).dueAt (s.wcc + 256) .packetRefetch (.queue d q)
      else
        s0.modQueue d q fun v =>
          { v with packets := v.packets ++
              [{ seq := v.next, kind := wbits (wordAt ws 0) 56 8, int := wbits (wordAt ws 0) 54 1 == 1, words := ws,
                 taken := false, started := false, copy := .none, done := none }] }

/-- Whether the fetch of a queue's head waits for X of an interleave change: the line of its descriptor or of its packet moves
(R313). -/
def State.fetchMoves (s : State) (d q : Nat) : Bool :=
  ((s.dev d).change.any fun c => c.pending) && (s.moving d ((s.dev d).config.qbase + 32 * q)
    || (let v := (s.loadQueue d q).queue d q
        v.en && s.linesMove d v.space .read 4 (v.ring.toNat + 64 * (v.consumed % 2 ^ v.logn)) 128))

/-- PACKET_FETCH (R275, R341, R343). -/
def execPacketFetch (s : State) : Out :=
  match s.ev with
  | .queue d q =>
    if !(s.queue d q).fetching then .next s
    else if s.fetchMoves d q then .next (s.dueAt (s.wcc + 1) .packetFetch (.queue d q))
    else
      let s1 := s.loadQueue d q
      if (s1.queue d q).state = 0 ∧ (s1.dev d).served then .next (s1.readHead d q 1)
      else .next (s1.modQueue d q fun v => { v with fetching := false })
  | _ => .next s

/-- PACKET_REFETCH (R275): 256 cycles after a failed read, up to 4 times. -/
def execPacketRefetch (s : State) : Out :=
  match s.ev with
  | .queue d q =>
    let v := s.queue d q
    if !v.fetching then .next s
    else if s.fetchMoves d q then .next (s.dueAt (s.wcc + 1) .packetRefetch (.queue d q))
    else if v.state = 0 ∧ (s.dev d).served then .next (s.readHead d q (v.refetch + 1))
    else .next (s.modQueue d q fun v => { v with fetching := false })
  | _ => .next s

/-! ## Taking and retiring packets (R342, R346, R347) -/

/-- The words of a LAUNCH: WIN2 and WIN3 are zero in the 64-byte form (R344). -/
def launchWords (ws : List Word) : List Word := ws ++ (if ws.length = 8 then [0, 0] else [])

/-- The four window images of a LAUNCH. -/
def launchWins (ws : List Word) : List Word := [wordAt ws 5, wordAt ws 6, wordAt ws 8, wordAt ws 9]

/-- The thread cores of a device inside a rectangle and outside the Phoub column (R232). -/
def State.jobCores (s : State) (d : Nat) (rect : Nat) : List CoreRef :=
  let (x0, y0, x1, y1) := rectOf rect
  ((List.range 16).filter fun y => decide (y0 ≤ y) && decide (y ≤ y1)).flatMap fun y =>
    (((List.range 64).filter fun x => decide (x0 ≤ x) && decide (x ≤ x1)).map fun x => CoreRef.thread d x y).filter
      fun c => !s.inColumn c

/-- Whether the LAUNCH fields of a packet or node keep R233 and R323. -/
def State.launchOk (s : State) (d : Nat) (ws : List Word) : Bool :=
  let w3 := wordAt ws 3
  let w := wbits w3 20 10
  let b := wbits w3 10 10
  let l := wbits w3 0 10
  let r := wordAt ws 4
  decide (320 ≤ w * 512) && decide (w + 1 ≤ b) && decide (b ≤ l) && decide (l ≤ 512) && scopeLegal r && scopeLevel r == 2
    && !(s.jobCores d (wbits r 0 22)).isEmpty && !(launchWins ws).any fun v => windowBad d v

/-- Whether a core is idle for a thread job: no live context, no retain tag, not in another job's steal set (R234). -/
def State.idleFor (s : State) (j : Nat) (c : CoreRef) : Bool :=
  let v := s.core c
  !s.coreLive c && v.retain == 0 && (match v.steal with
    | none => true
    | some x => x.tjob == j)

/-- Whether a core is eligible for the root of a thread job (R234). -/
def State.rootCore (s : State) (j : Nat) (c : CoreRef) : Bool :=
  s.idleFor j c || (s.inSet j c && decide (2 ≤ (s.freeCtxs c).length))

/-- Whether a packet may start now, those before it allowing (R346): a FENCE or SIGNAL after every earlier packet has
completed, a LAUNCH that is not refused when a core is eligible for its root (R235, R342). -/
def State.mayBegin (s : State) (d : Nat) (p : Packet) (earlier : List Packet) : Bool :=
  match p.kind with
  | 1 =>
    let ws := launchWords p.words
    !s.launchOk d ws || (s.jobCores d (wbits (wordAt ws 4) 0 22)).any fun c => s.rootCore s.serial c
  | 5 | 6 => earlier.all fun x => x.done.isSome
  | _ => true

/-- Whether a line of the graph that a packet names moves: its header, or its nodes (R249, R313). -/
def State.graphMoves (s : State) (d : Nat) (space : BitVec 16) (va : Nat) : Bool :=
  ((s.dev d).change.any fun c => c.pending) && (s.linesMove d space .read 4 va 32
    || ((s.virtGet d space 4 va 16).map fun bs =>
        s.linesMove d space .read 4 (imageNum bs 8 8) (64 * (imageNum bs 0 8 % 2 ^ 13))).getD false)

/-- The packet that stands fetched at a queue's head, if its queue may take it now; a malformed one is refused when it could be
taken (R342, R343). -/
def State.takeable (s : State) (d q : Nat) : Option Packet :=
  let v := s.queue d q
  match v.packets.getLast? with
  | none => none
  | some p =>
    if !v.en ∨ v.state ≠ 0 ∨ p.taken ∨ !(s.dev d).served ∨ (s.dev d).tookAt = some s.wcc then none
    else if !s.mayBegin d p v.packets.dropLast ∨ (p.kind = 2 ∧ s.graphMoves d v.space (wordAt p.words 2).toNat) then none
    else some p

/-- A malformed head is not taken: its queue freezes as bad-packet, and reads its head again when it is resumed (R343,
R349). -/
def State.refuseHead (s : State) (d q : Nat) : State :=
  (s.modQueue d q fun v => { v with packets := v.packets.filter fun p => p.taken }).freezeQueue d q 1 .none

/-- Changes a packet of a queue. -/
def State.modPacket (s : State) (d q seq : Nat) (f : Packet → Packet) : State :=
  s.modQueue d q fun v => { v with packets := v.packets.map fun p => if p.seq = seq then f p else p }

/-- The front end takes the head packet: the sequence number and the slots advance. -/
def State.take (s : State) (d q : Nat) (p : Packet) : State :=
  let slots := if wbits (wordAt p.words 0) 55 1 = 1 then 2 else 1
  ((s.modPacket d q p.seq fun x => { x with taken := true, started := p.kind != 1 }).modQueue d q fun v =>
    { v with next := v.next + 1, consumed := v.consumed + slots }).modDev d fun x =>
    { x with turn := x.turn.put (s.queue d q).prio q, tookAt := some s.wcc }

/-- The completion record (R347): the count of retired packets, and the latest status that is not 0 with its SEQ. One that
does not translate stays owed, and the queue freezes as record-fault. -/
def State.storeCompletion (s : State) (d q : Nat) : State :=
  let v := s.queue d q
  let at_ (s : State) (k x : Nat) : Option State := s.virtStore d v.space 4 (v.compl.toNat + k) 8 x
  match (at_ s 0 v.retired).bind fun s1 => at_ s1 8 (v.status * 2 ^ 56 + v.statusSeq % 2 ^ 32) with
  | none => s.freezeQueue d q 11 .none
  | some s1 => (s1.modQueue d q fun v => { v with recordOwed := false }).armInterrupt d q

/-- Whether the front end stores a queue's completion record now: one store for the retirements of a cycle, none while the
queue is frozen by record-fault or the record's line moves (R313, R347). -/
def State.recordDue (s : State) (d q : Nat) : Bool :=
  let v := s.queue d q
  v.recordOwed && !(v.state == 1 && v.cause == 11) && !v.pending.any (fun e => e.1 == 11)
    && !s.storeMoves d v.space 4 v.compl.toNat 16

/-- Retires the completed packets at the head of a queue, in ring order; the record follows (R347). -/
def State.retirePackets (s : State) (d q : Nat) : State :=
  let v := s.queue d q
  let out := v.packets.takeWhile fun p => p.done.isSome
  if out = [] then s
  else
    let bad := (out.filter fun p => p.done != some 0).getLast?
    s.modQueue d q fun v =>
      { v with
        packets := v.packets.drop out.length, retired := v.retired + out.length,
        status := match bad with
          | some p => p.done.getD 0
          | none => v.status,
        statusSeq := match bad with
          | some p => p.seq
          | none => v.statusSeq,
        intOwed := v.intOwed || out.any fun p => p.int, recordOwed := true }

/-- A packet completes with a status; what it blocked goes on. -/
def State.completePacket (s : State) (d q seq status : Nat) : State :=
  ((s.modPacket d q seq fun p => { p with started := true, done := some (p.done.getD status) }).retirePackets d q).beginFetch
    d q

/-! ## Thread jobs and their cores (R231 to R234, R238) -/

/-- A new thread job, its root not yet placed (R231, R344). -/
def State.newTJob (s : State) (d q seq : Nat) (node : Option (Nat × Nat)) (ws : List Word) : State :=
  let v := s.queue d q
  let w3 := wordAt ws 3
  let (j, s1) := s.number
  let tj : TJob :=
    { dev := d, queue := q, seq := seq, node := node, prio := v.prio, space := v.space, tvec := v.tvec,
      rect := BitVec.ofNat 22 (wbits (wordAt ws 4) 0 22), root := wordAt ws 2, maxgap := wbits w3 40 24,
      bndW := BitVec.ofNat 10 (wbits w3 20 10), bndS := BitVec.ofNat 10 (wbits w3 10 10),
      bndL := BitVec.ofNat 10 (wbits w3 0 10), wins := launchWins ws, sent := 0, rcvd := 0, dqEmpty := false,
      wave := (0, 0), state := .placing }
  ({ s1 with tjobs := s1.tjobs.put j tj } : State).within 560 .launchPlacement (.place j (.thread d 0 0))

/-- A window register as an image gives it: RES reads zero (R11, R323). -/
def windowImage (v : TJob) (i : Nat) : Word := wordAt v.wins i >>> 24 <<< 24

/-- A core joins a thread job's steal set: its space, boundaries and windows are the job's, its L1 and its deque are empty
(R111, R234, R238, R320, R323). -/
def State.joinSet (s : State) (j : Nat) (v : TJob) (c : CoreRef) : State :=
  s.modCore c fun k =>
    { k with
      space := v.space, bndW := v.bndW, bndS := v.bndS, bndL := v.bndL, win0 := windowImage v 0,
      win1 := windowImage v 1, win2 := windowImage v 2, win3 := windowImage v 3, l1 := [], dqTop := 0, dqLen := 0,
      steal := some { tjob := j, probing := none, first := none } }

/-- A core leaves its steal set: its windows are cleared (R248, R323). -/
def Core.leaveSet (c : Core) : Core := { c with win0 := 0, win1 := 0, win2 := 0, win3 := 0, steal := none, dqLen := 0 }

/-- Whether a placement waits: its queue does not run, and the job is no node of a graph (R346, R349); a node waits only
while its queue is suspended. -/
def State.placementWaits (s : State) (v : TJob) : Bool :=
  let q := s.queue v.dev v.queue
  q.state == 2 || (q.state != 0 && v.node.isNone)

/-- The root's first task starts on a core's lowest free context (R234). -/
def State.startRoot (s : State) (j : Nat) (v : TJob) (c : CoreRef) : State :=
  let s1 := if s.inSet j c then s else s.joinSet j v c
  let n := (s1.freeCtxs c).headD 0
  let s2 := s1.modTJob j fun v => { v with state := .running }
  let s3 := s2.beginTask ⟨c, n⟩ (v.env j) false v.root
  let s4 := s3.within 1023 .terminationWave (.tjob j)
  match v.node with
  | some _ => s4
  | none => (s4.modPacket v.dev v.queue v.seq fun p => { p with started := true }).beginFetch v.dev v.queue

/-- LAUNCH_PLACEMENT (R234, R235): on the core the front end has chosen, if it is eligible still; else on one it chooses
among those that are. With none eligible it waits. -/
def execLaunchPlacement (s : State) : Out :=
  match s.ev with
  | .place j c =>
    match s.tjobs.get? j with
    | none => .next s
    | some v =>
      if v.state ≠ .placing then .next s
      else
        let cs := if s.placementWaits v then [] else (s.jobCores v.dev v.rect.toNat).filter fun c => s.rootCore j c
        if cs = [] then .next (s.dueAt (s.wcc + 1) .launchPlacement (.place j c))
        else
          let (k, s1) := s.pick cs.length
          .next (s1.startRoot j v ((cs[k]?).getD c))
  | _ => .next s

end Sys2Proof.Machine
end

