-- ==== Sys2Proof/Machine/Graphs.lean ====
section
/-! DEFINITION. Graphs (R249 to R254), the front end's copies, waits and signals, and the taking of each kind of packet (R345,
R346). -/

namespace Sys2Proof.Machine

/-! ## Nodes -/

/-- The record of node n. -/
def Graph.node (g : Graph) (n : Nat) : List Word := (g.nodes[n]?).getD []

/-- KIND of a node. -/
def nodeKind (ws : List Word) : Nat := wbits (wordAt ws 0) 56 8

/-- NPRED of a node. -/
def nodePreds (ws : List Word) : Nat := wbits (wordAt ws 0) 48 8

/-- SUCC0 to SUCC3, 0xFFFF for none. -/
def nodeSuccs (ws : List Word) : List Nat :=
  [wbits (wordAt ws 1) 48 16, wbits (wordAt ws 1) 32 16, wbits (wordAt ws 1) 16 16, wbits (wordAt ws 1) 0 16]

/-- FIRST and LAST of a LOOP. -/
def loopBody (ws : List Word) : Nat × Nat := (wbits (wordAt ws 3) 48 16, wbits (wordAt ws 3) 32 16)

/-- The bodies of a graph's loops: the loop's index, FIRST and LAST. -/
def loopBodies (nodes : List (List Word)) : List (Nat × Nat × Nat) :=
  (nodes.zipIdx.filter fun x => nodeKind x.1 == 6).map fun x => (x.2, loopBody x.1)

/-- Whether a node lies in a body. -/
def inBody (b : Nat × Nat × Nat) (n : Nat) : Bool := decide (b.2.1 ≤ n) && decide (n ≤ b.2.2)

/-- How many SUCC fields name a node. -/
def namedBy (nodes : List (List Word)) (n : Nat) : Nat :=
  nodes.foldl (fun k ws => k + ((nodeSuccs ws).filter fun x => x == n).length) 0

/-- The limits of a node's fields (Tables 8 and 9 of R249). -/
def nodeFieldsOk (ws : List Word) : Bool :=
  wbits (wordAt ws 0) 0 48 == 0 && (match nodeKind ws with
    | 1 => wbits (wordAt ws 3) 30 10 == 0 && wordAt ws 7 == 0
    | 2 => copyOk ws
    | 3 => waitOk ws
    | 4 => waitOk ws
    | 5 => aligned (wordAt ws 2) 8 && zeroWords ws 3 5
    | 6 => aligned (wordAt ws 2) 8 && wbits (wordAt ws 3) 0 32 != 0 && zeroWords ws 4 4
    | _ => false)

/-- Whether a loop's body keeps R254. -/
def bodyOk (nodes : List (List Word)) (b : Nat × Nat × Nat) : Bool :=
  let (l, f, e) := b
  let at_ (n : Nat) : List Word := (nodes[n]?).getD []
  let names (n : Nat) : List Nat := (nodeSuccs (at_ n)).filter fun x => x != 0xFFFF
  decide (l < f) && decide (f ≤ e) && decide (e < nodes.length) && nodePreds (at_ f) == 0 && (names e).isEmpty
    && ((List.range nodes.length).all fun n =>
      if inBody b n then (names n).all fun x => inBody b x else (names n).all fun x => !inBody b x)
    && (loopBodies nodes).all fun c =>
      c == b || !(decide (c.2.1 ≤ e) && decide (f ≤ c.2.2)) || (decide (f ≤ c.2.1) && decide (c.2.2 ≤ e))
        || (decide (c.2.1 ≤ f) && decide (e ≤ c.2.2))

/-- The checks of R249 on a graph's header words and node records. -/
def graphOk (head : List Word) (nodes : List (List Word)) : Bool :=
  let n := wbits (wordAt head 0) 0 13
  wbits (wordAt head 0) 13 51 == 0 && decide (1 ≤ n) && decide (n ≤ 4096) && aligned (wordAt head 1) 64
    && isDeviceMemory (wordAt head 1) && isDeviceMemory (wordAt head 2) && wordAt head 3 == 0
    && (nodes.zipIdx.all fun x =>
      nodeFieldsOk x.1 && nodePreds x.1 == namedBy nodes x.2
        && (nodeSuccs x.1).all fun k => k == 0xFFFF || (decide (k < n) && decide (x.2 < k)))
    && (loopBodies nodes).all fun b => bodyOk nodes b

/-- Reads the 8-byte words of a range for the front end. -/
def State.frontWords (s : State) (d : Nat) (space : BitVec 16) (va n : Nat) : Option (List Word) :=
  (s.virtGet d space 4 va (8 * n)).map wordsOf

/-- Reads k node records of 64 bytes. -/
def State.readNodes (s : State) (d : Nat) (space : BitVec 16) (va : Nat) : Nat → Option (List (List Word))
  | 0 => some []
  | k + 1 =>
    match s.frontWords d space va 8, s.readNodes d space (va + 64) k with
    | some ws, some rest => some (ws :: rest)
    | _, _ => none

/-- The graph that a packet names, checked (R249). -/
def State.readGraph (s : State) (d : Nat) (space : BitVec 16) (va : Word) : Option (List Word × List (List Word)) :=
  if !aligned va 32 then none
  else
    match s.frontWords d space va.toNat 4 with
    | none => none
    | some head =>
      match s.readNodes d space (wordAt head 1).toNat (wbits (wordAt head 0) 0 13) with
      | none => none
      | some nodes => if graphOk head nodes then some (head, nodes) else none

/-! ## Statuses (R250 to R253) -/

/-- Changes a graph. -/
def State.modGraph (s : State) (g : Nat) (f : Graph → Graph) : State :=
  match s.graphs.get? g with
  | some v => { s with graphs := s.graphs.put g (f v) }
  | none => s

/-- The status of a node. -/
def Graph.stOf (v : Graph) (n : Nat) : Nat := (v.status.get? n).getD 0

/-- Whether a node has ended. -/
def Graph.isEnded (v : Graph) (n : Nat) : Bool := decide (2 ≤ v.stOf n)

/-- A node's status takes a value, which is stored at STAT + index (R250). While the byte's line moves its store is held, and
the status as it stands then is stored after X (R311, R313). [log 98] -/
def State.setStatus (s : State) (g n x : Nat) : State :=
  match s.graphs.get? g with
  | none => s
  | some v =>
    let s1 := s.modGraph g fun v => { v with status := v.status.put n x }
    if v.unstored.contains n then s1
    else if s1.storeMoves v.dev v.space 4 (v.stat.toNat + n) 1 then
      (s1.modGraph g fun v => { v with unstored := n :: v.unstored }).dueAt (s.wcc + 1) .movedReplay (.node g n)
    else (s1.virtStore v.dev v.space 4 (v.stat.toNat + n) 1 x).getD s1

/-- One predecessor of a node has ended: skipped, or cancelled or failed, or done. -/
def Graph.countEnd (v : Graph) (n : Nat) (skipped bad : Bool) : Graph :=
  let (a, b, c) := (v.ended.get? n).getD (0, 0, 0)
  { v with ended := v.ended.put n (a + 1, b + (if skipped then 1 else 0), c + (if bad then 1 else 0)) }

/-- A node ends with a status, for a COND by the branch it takes (R251, R252): its successors count it. -/
def State.endNode (s : State) (g n x : Nat) (branch : Option Bool) : State :=
  let s1 := s.setStatus g n x
  s1.modGraph g fun v =>
    (nodeSuccs (v.node n)).zipIdx.foldl (fun v y =>
      if y.1 = 0xFFFF then v
      else
        let off : Bool := match branch with
          | none => x == 3
          | some taken => if taken then decide (2 ≤ y.2) else decide (y.2 < 2)
        v.countEnd y.1 off (x == 4 || x == 5)) v

/-- The nodes reachable from a set through SUCC fields: successors have higher indices, so one pass in order finds
them. -/
def Graph.reach (v : Graph) (n : Nat) : List Nat :=
  (List.range v.nodes.length).foldl (fun l k =>
    if l.contains k then l ++ (nodeSuccs (v.node k)).filter fun x => x != 0xFFFF && !l.contains x else l) [n]

/-- A node has failed (R253): every pending node reachable from it is cancelled. -/
def State.breakNode (s : State) (g n cause : Nat) : State :=
  match s.graphs.get? g with
  | none => s
  | some v =>
    let s1 := (s.endNode g n 5 none).modGraph g fun v => { v with failed := true, cause := cause }
    (List.range v.nodes.length).foldl (fun st k =>
      if k ≠ n ∧ (v.reach n).contains k ∧ v.stOf k = 0 then st.endNode g k 4 none else st) s1

/-- A node fails (R253): the queue freezes with the cause, unless the graph has frozen it. -/
def State.failNode (s : State) (g n cause : Nat) : State :=
  match s.graphs.get? g with
  | none => s
  | some v =>
    let s1 := s.breakNode g n cause
    let mine (o : Operand) : Bool := match o with
      | .node h _ => h == g
      | _ => false
    let q := s1.queue v.dev v.queue
    if (q.state != 0 && mine q.culprit) || q.pending.any fun e => mine e.2 then s1
    else s1.freezeQueue v.dev v.queue cause (.node g n)

/-- Whether a pending node of a graph may start: after a failure, not before its queue runs again (R253). -/
def State.mayStart (s : State) (v : Graph) : Bool := !v.failed || (s.queue v.dev v.queue).state == 0

/-- The start of a settled node, within 200 cycles (R251). -/
def State.sendStart (s : State) (g n : Nat) : State :=
  (s.modGraph g fun v => { v with going := n :: v.going }).within 200 .graphNodeStart (.node g n)

/-- Settles a pending node, if its predecessors have all ended (R251). A node without predecessors in a loop's body waits
for its loop. -/
def State.settleNode (s : State) (g n : Nat) : State :=
  match s.graphs.get? g with
  | none => s
  | some v =>
    let need := nodePreds (v.node n)
    let (a, b, c) := (v.ended.get? n).getD (0, 0, 0)
    let waits := need == 0 && (loopBodies v.nodes).any fun x => inBody x n
    if v.stOf n ≠ 0 ∨ v.going.contains n ∨ a < need ∨ waits then s
    else if 0 < c then s.endNode g n 4 none
    else if 0 < need ∧ b = need then s.endNode g n 3 none
    else if s.mayStart v then s.sendStart g n
    else s

/-- Settles every node, in ascending order, so that an end settles its successors in the same pass. -/
def State.settleAll (s : State) (g : Nat) : State :=
  match s.graphs.get? g with
  | none => s
  | some v => (List.range v.nodes.length).foldl (fun st n => st.settleNode g n) s

/-! ## Loops (R254) -/

/-- A predicate whose line moves is read after X (R313): the node's test is on its way again. -/
def State.testLater (s : State) (g n : Nat) : State :=
  match s.graphs.get? g with
  | none => s
  | some v =>
    if v.going.contains n then s
    else (s.modGraph g fun v => { v with going := n :: v.going }).dueAt (s.wcc + 1) .graphNodeStart (.node g n)

/-- The test of a COND: its branch, or its failure (R252). -/
def State.condTest (s : State) (g n : Nat) : State :=
  match s.graphs.get? g with
  | none => s
  | some v =>
    let va := (wordAt (v.node n) 2).toNat
    if s.linesMove v.dev v.space .read 4 va 8 then s.testLater g n
    else
      match s.virtWord v.dev v.space 4 false va with
      | none => s.failNode g n 8
      | some p => s.endNode g n 2 (some (p != 0))

/-- The test of a LOOP: another iteration, its end, or its failure. -/
def State.loopTest (s : State) (g l : Nat) : State :=
  match s.graphs.get? g with
  | none => s
  | some v =>
    let ws := v.node l
    let (f, e) := loopBody ws
    let it := (v.iterations.get? l).getD 0
    if s.linesMove v.dev v.space .read 4 (wordAt ws 2).toNat 8 then s.testLater g l else
    match s.virtWord v.dev v.space 4 false (wordAt ws 2).toNat with
    | none => s.failNode g l 8
    | some p =>
      if p ≠ 0 ∧ it < wbits (wordAt ws 3) 0 32 then
        let body := (List.range (e + 1)).filter fun n => decide (f ≤ n)
        let s1 := body.foldl (fun st n => st.setStatus g n 0) s
        let s2 := s1.modGraph g fun v =>
          { v with
            ended := v.ended.filter fun x => !body.contains x.1, going := v.going.filter fun n => n != l && !body.contains n,
            iterations := Table.put (v.iterations.filter fun x => !body.contains x.1) l (it + 1) }
        s2.sendStart g f
      else s.endNode g l 2 none

/-- A running LOOP whose LAST has ended fails with a failed body node, or tests again. -/
def State.loopTurn (s : State) (g : Nat) (b : Nat × Nat × Nat) : State :=
  match s.graphs.get? g with
  | none => s
  | some v =>
    if v.stOf b.1 ≠ 1 ∨ !v.isEnded b.2.2 then s
    else if (List.range v.nodes.length).any fun n => inBody b n && v.stOf n == 5 then s.failNode g b.1 v.cause
    else s.loopTest g b.1

/-- One round of settling and of loops, the inner loops first. -/
def State.graphRound (s : State) (g : Nat) : State :=
  match s.graphs.get? g with
  | none => s
  | some v => (loopBodies v.nodes).reverse.foldl (fun st b => st.loopTurn g b) (s.settleAll g)

/-- Rounds until the ends of loops have settled what follows them. -/
def State.graphRounds (s : State) (g : Nat) : Nat → State
  | 0 => s.settleAll g
  | n + 1 => (s.graphRound g).graphRounds g n

/-- Whether a graph has ended: every node outside the bodies has ended, and no body node is under way. -/
def Graph.over (v : Graph) : Bool :=
  (List.range v.nodes.length).all fun n =>
    v.isEnded n || (v.stOf n == 0 && !v.going.contains n && (loopBodies v.nodes).any fun b => inBody b n)

/-- A graph goes on after a node has ended; when every node has, and its statuses are stored, its packet completes (R253). -/
def State.advanceGraph (s : State) (g : Nat) : State :=
  match s.graphs.get? g with
  | none => s
  | some v =>
    let s1 := s.graphRounds g (loopBodies v.nodes).length
    match s1.graphs.get? g with
    | none => s1
    | some w =>
      if w.over ∧ w.unstored = [] then
        ({ s1 with graphs := s1.graphs.drop g } : State).completePacket w.dev w.queue w.seq (if w.failed then w.cause else 0)
      else s1

/-! ## Copies, waits and signals of the front end (R249, R345) -/

/-- A front-end operation under way, of a node kind: its device, queue, space and record words; a node, or a packet, whose
kinds are numbered one higher (R345). -/
def State.frontOp (s : State) (kind : Nat) (o : Operand) : Option (Nat × Nat × BitVec 16 × List Word) :=
  match o with
  | .node g n =>
    match s.graphs.get? g with
    | some v => if v.stOf n = 1 ∧ nodeKind (v.node n) = kind then some (v.dev, v.queue, v.space, v.node n) else none
    | none => none
  | .pkt d q seq =>
    match (s.queue d q).packets.find? fun p => p.seq == seq with
    | some p => if p.taken ∧ p.done.isNone ∧ p.kind = kind + 1 then some (d, q, (s.queue d q).space, p.words) else none
    | none => none
  | _ => none

/-- A front-end operation is done. -/
def State.frontDone (s : State) (o : Operand) : State :=
  match o with
  | .node g n => (s.endNode g n 2 none).advanceGraph g
  | .pkt d q seq => s.completePacket d q seq 0
  | _ => s

/-- A front-end operation fails: node-fault (R349). -/
def State.frontFail (s : State) (o : Operand) : State :=
  match o with
  | .node g n => (s.failNode g n 8).advanceGraph g
  | .pkt d q seq => s.freezeQueue d q 8 (.pkt d q seq)
  | _ => s

/-- Writes bytes at consecutive virtual addresses of a master class; none when one does not translate. -/
def State.virtPut (s : State) (d : Nat) (space : BitVec 16) (cls : Nat) (va : Nat) : List Byte → Option State
  | [] => some s
  | b :: bs =>
    match s.virtStore d space cls va 1 b.toNat with
    | none => none
    | some s1 => s1.virtPut d space cls (va + 1) bs

/-- The work that a COPY under way has left. -/
def State.copyWork (s : State) (o : Operand) : CopyWork :=
  match o with
  | .node g n => (((s.graphs.get? g).map fun v => v.copies.get? n).join).getD .none
  | .pkt d q seq => (((s.queue d q).packets.find? fun p => p.seq == seq).map fun p => p.copy).getD .none
  | _ => .none

/-- Sets the work that a COPY under way has left. -/
def State.setCopyWork (s : State) (o : Operand) (w : CopyWork) : State :=
  match o with
  | .node g n => s.modGraph g fun v => { v with copies := v.copies.put n w }
  | .pkt d q seq => s.modPacket d q seq fun p => { p with copy := w }
  | _ => s

/-- A COPY starts: it has every byte to read and to write. -/
def State.startCopy (s : State) (o : Operand) (ws : List Word) : State :=
  (s.setCopyWork o (.of (wordAt ws 4).toNat)).later .copyNodeDone o

/-- A COPY reads a piece of its source, or writes a piece of its destination that it has read, in any order (R256); none when
the piece does not translate. A piece with a line that moves waits (R313). -/
def State.frontCopyStep (s : State) (d : Nat) (space : BitVec 16) (o : Operand) (src dst : Nat) : Option State :=
  let w := s.copyWork o
  let (k, s1) := s.pick 2
  let ((a, n), s2) := s1.piece w.due dst
  if !(w.left.any fun r => decide (r.1 < a + n) && decide (a < r.1 + r.2)) ∧ (k = 1 ∨ w.left = []) then
    if s.storeMoves d space 4 (dst + a) n then some s2
    else (s2.virtPut d space 4 (dst + a) (w.got.getBytes a n)).map fun s3 =>
      s3.setCopyWork o { w with due := cutRange w.due a n, got := w.got.clear a n }
  else
    let ((a, n), s2) := s1.piece w.left src
    if s.linesMove d space .read 4 (src + a) n then some s2
    else (s.virtGet d space 4 (src + a) n).map fun bs =>
      s2.setCopyWork o { w with left := cutRange w.left a n, got := w.got.setBytes a bs }

/-- COPY_NODE_DONE (R249, R256): a piece of the copy is read or written; when the last has been written the copy is done. A
translation fault makes it failed. -/
def execCopyNodeDone (s : State) : Out :=
  match s.frontOp 2 s.ev with
  | none => .next s
  | some (d, _, space, ws) =>
    if (s.copyWork s.ev).due = [] then .next (s.frontDone s.ev)
    else
      match s.frontCopyStep d space s.ev (wordAt ws 2).toNat (wordAt ws 3).toNat with
      | none => .next (s.frontFail s.ev)
      | some s1 => .next (s1.later .copyNodeDone s.ev)

/-- WAIT_NODE_POLL (R249): an acquire at system scope every 256 cycles. A word whose line moves is read after X (R313). -/
def execWaitNodePoll (s : State) : Out :=
  match s.frontOp 3 s.ev with
  | none => .next s
  | some (d, _, space, ws) =>
    if s.linesMove d space .read 4 (wordAt ws 2).toNat 8 then .next (s.dueAt (s.wcc + 1) .waitNodePoll s.ev) else
    match s.virtWord d space 4 false (wordAt ws 2).toNat with
    | none => .next (s.frontFail s.ev)
    | some x =>
      if (wordAt ws 3).toNat ≤ x.toNat then .next (s.frontDone s.ev)
      else .next (s.dueAt (s.wcc + 256) .waitNodePoll s.ev)

/-- Whether status stores of a node's graph are held: the earlier stores of a SIGNAL node (R274, R313). -/
def State.statusHeld (s : State) (o : Operand) : Bool :=
  match o with
  | .node g _ => (s.graphs.get? g).any fun v => v.unstored != []
  | _ => false

/-- SIGNAL_NODE_DONE (R249, R274): the store is performed, as a release at system scope: after the graph's earlier stores. -/
def execSignalNodeDone (s : State) : Out :=
  match s.frontOp 4 s.ev with
  | none => .next s
  | some (d, _, space, ws) =>
    if s.statusHeld s.ev || s.storeMoves d space 4 (wordAt ws 2).toNat 8 then .next (s.dueAt (s.wcc + 1) .signalNodeDone s.ev) else
    match s.virtStore d space 4 (wordAt ws 2).toNat 8 (wordAt ws 3).toNat with
    | none => .next (s.frontFail s.ev)
    | some s1 => .next (s1.frontDone s.ev)

/-- A COND or a LOOP tests its predicate, and its graph goes on. -/
def State.testNode (s : State) (g n kind : Nat) : State :=
  (if kind = 5 then s.condTest g n else s.loopTest g n).advanceGraph g

/-- GRAPH_NODE_START (R251, R253): the node runs; a failure in its graph keeps it from starting until the queue runs again. One
that runs already tests its predicate again (R313). -/
def execGraphNodeStart (s : State) : Out :=
  match s.ev with
  | .node g n =>
    match s.graphs.get? g with
    | none => .next s
    | some v =>
      let ws := v.node n
      if !v.going.contains n then .next s
      else if v.stOf n = 0 ∧ !s.mayStart v then .next (s.dueAt (s.wcc + 1) .graphNodeStart s.ev)
      else
        let s0 := s.modGraph g fun v => { v with going := without v.going n }
        match v.stOf n with
        | 0 =>
          let s1 := s0.setStatus g n 1
          match nodeKind ws with
          | 1 =>
            if s1.launchOk v.dev (ws.take 8) then .next (s1.newTJob v.dev v.queue v.seq (some (g, n)) (ws.take 8))
            else .next ((s1.failNode g n 3).advanceGraph g)
          | 2 => .next (s1.startCopy (.node g n) ws)
          | 3 => .next (s1.dueAt s1.wcc .waitNodePoll (.node g n))
          | 4 => .next (s1.later .signalNodeDone (.node g n))
          | k => .next (s1.testNode g n k)
        | 1 => .next (s0.testNode g n (nodeKind ws))
        | _ => .next s0
  | _ => .next s

/-- MOVED_REPLAY (R311, R313): a requester re-sends the requests that were answered MOVED, in their order; the front end stores
a status that was held. -/
def execMovedReplay (s : State) : Out :=
  match s.ev with
  | .ctx t _ =>
    let c := s.ctx t
    let s1 := c.stores.foldl (fun st _ => let (k, u) := st.pick 4096; u.later .storePerformed (.ctx t k)) s
    match c.mode with
    | .waiting (.load _ _ _ _) => let (k, u) := s1.pick 4096; .next (u.later .threadLoadReply (.ctx t k))
    | .waiting (.atomic _ _ _ _) => .next (s1.later .atomicReply (.ctx t 0))
    | .waiting (.window _ _ _ _) => .next (s1.later .windowStoreAck (.ctx t 0))
    | .waiting (.reply _ _) => .next (if c.cur.any isCounterOp then s1.later .atomicReply (.ctx t 0) else s1)
    | _ => .next s1
  | .node g n =>
    match s.graphs.get? g with
    | none => .next s
    | some v =>
      if !v.unstored.contains n then .next s
      else if s.storeMoves v.dev v.space 4 (v.stat.toNat + n) 1 then .next (s.dueAt (s.wcc + 1) .movedReplay s.ev)
      else
        let s1 := s.modGraph g fun v => { v with unstored := without v.unstored n }
        .next ((s1.setStatus g n (v.stOf n)).advanceGraph g)
  | _ => .next s

/-! ## Packets (R345, R346) -/

/-- Takes the head packet of a queue, when it is of a kind and may be taken now; one that breaks R343 is refused. -/
def takePacket (s : State) (kind : Nat) (k : Nat → Nat → Packet → State → Out) : Out :=
  match s.ev with
  | .queue d q =>
    match s.takeable d q with
    | some p =>
      if !packetOk p.words then .next (s.refuseHead d q)
      else if p.kind = kind then k d q p (s.take d q p)
      else .next s
    | none => .next s
  | _ => .next s

/-- PACKET_LAUNCH (R233, R346): checked, it waits for its root's placement; refused, it freezes its queue. -/
def execPacketLaunch (s : State) : Out :=
  takePacket s 1 fun d q p s =>
    let ws := launchWords p.words
    if s.launchOk d ws then .next (s.newTJob d q p.seq none ws) else .next (s.freezeQueue d q 3 (.pkt d q p.seq))

/-- PACKET_GRAPH (R249): the graph is checked, and its nodes without predecessors start. -/
def execPacketGraph (s : State) : Out :=
  takePacket s 2 fun d q p s =>
    let space := (s.queue d q).space
    match s.readGraph d space (wordAt p.words 2) with
    | none => .next (s.freezeQueue d q 4 (.pkt d q p.seq))
    | some (head, nodes) =>
      let (g, s1) := s.number
      let v : Graph :=
        { dev := d, queue := q, seq := p.seq, space := space, nodes := nodes, stat := wordAt head 2, status := [],
          ended := [], iterations := [], going := [], copies := [], unstored := [], failed := false, cause := 0 }
      let s2 : State := { s1 with graphs := s1.graphs.put g v }
      let s3 := (List.range nodes.length).foldl (fun st n => st.setStatus g n 0) s2
      .next ((s3.advanceGraph g).beginFetch d q)

/-- PACKET_COPY (R345). -/
def execPacketCopy (s : State) : Out :=
  takePacket s 3 fun d q p s => .next ((s.startCopy (.pkt d q p.seq) p.words).beginFetch d q)

/-- PACKET_WAIT (R346): it blocks the queue until it is done. -/
def execPacketWait (s : State) : Out :=
  takePacket s 4 fun d q p s => .next (s.dueAt s.wcc .waitNodePoll (.pkt d q p.seq))

/-- PACKET_SIGNAL (R346): every earlier packet has completed. -/
def execPacketSignal (s : State) : Out :=
  takePacket s 5 fun d q p s => .next ((s.later .signalNodeDone (.pkt d q p.seq)).beginFetch d q)

/-- PACKET_FENCE (R346): it completes, since every earlier packet has. -/
def execPacketFence (s : State) : Out :=
  takePacket s 6 fun d q p s => .next (s.completePacket d q p.seq 0)

end Sys2Proof.Machine
end

