-- ==== Sys2Proof/Machine/Termination.lean ====
section
/-! DEFINITION. The termination tree and its reports (R247, R248), idle cores (R238), the dissolution of a thread job, QCTL
(R349), the pre-emption of contexts (R338, R339), wakes (R351). -/

namespace Sys2Proof.Machine

/-! ## The termination tree (R247) -/

/-- The contexts of a thread job. -/
def State.jobCtxs (s : State) (j : Nat) : List (Nat × Ctx) := s.ctxs.filter fun e => e.2.tjob == some j && e.2.mode != .free

/-- The cores of a thread job's steal set. -/
def State.setCores (s : State) (j : Nat) : List CoreRef :=
  (s.cores.filter fun e => match e.2.steal with
    | some x => x.tjob == j
    | none => false).map fun e => CoreRef.ofCode e.1

/-- LIVE: the threads of the job that stand on a core; one that is away counts where it is a guest, and in transit it
counts as sent. [log 19] -/
def State.liveCount (s : State) (j : Nat) : Nat := ((s.jobCtxs j).filter fun e => e.2.mode != .away).length

/-- RECVB: live contexts that wait in RECV and in nothing else. -/
def State.recvCount (s : State) (j : Nat) : Nat :=
  ((s.jobCtxs j).filter fun e => match e.2.mode with
    | .waiting (.recv _) => true
    | _ => false).length

/-- DQ: nonempty deques. -/
def State.dequeCount (s : State) (j : Nat) : Nat := ((s.setCores j).filter fun c => (s.core c).dqLen != 0).length

/-- TJ: timed jobs of the job that have not completed. -/
def State.timedCount (s : State) (j : Nat) : Nat := (s.jobs.filter fun e => e.2.tjob == some j).length

/-- ENG: engine commands of the job's contexts that have not completed. -/
def State.engineCount (s : State) (j : Nat) : Nat :=
  s.cores.foldl (fun n e =>
    let mine (v : EngineState) : Nat := ((v.fifo ++ v.active).filter fun c => c.tjob == some j).length
    n + mine e.2.copy + mine e.2.gather + mine e.2.coll) 0

/-- What a wave finds: 1 done, 2 deadlocked, 0 neither (R247). -/
def State.waveKind (s : State) (j : Nat) (v : TJob) : Nat :=
  let quiet := s.dequeCount j == 0 && s.timedCount j == 0 && s.engineCount j == 0 && v.sent == v.rcvd
  let live := s.liveCount j
  if quiet && live == 0 then 1 else if quiet && live == s.recvCount j then 2 else 0

/-- TERMINATION_WAVE (R241, R247): two successive waves that agree make a report; DQ = 0 is broadcast, and the contexts that
wait in TASKEND with no probe outstanding halt. -/
def execTerminationWave (s : State) : Out :=
  match s.ev with
  | .tjob j =>
    match s.tjobs.get? j with
    | none => .next s
    | some v =>
      let s0 := s.within 1023 .terminationWave (.tjob j)
      if v.state ≠ .running then .next (s0.modTJob j fun v => { v with wave := (0, 0) })
      else
        let kind := s.waveKind j v
        let empty := s.dequeCount j == 0
        let s1 := s0.modTJob j fun v => { v with wave := (kind, v.sent), dqEmpty := empty }
        let s2 :=
          if empty then
            (s1.setCores j).foldl (fun st c =>
              match (st.core c).steal with
              | some x => if x.probing.isSome then st else st.haltWaiters c
              | none => st) s1
          else s1
        if kind ≠ 0 ∧ v.wave = (kind, v.sent) then
          .next (s2.dueAt s.wcc (if kind = 1 then .jobDoneReport else .jobDeadlockReport) (.tjob j))
        else .next s2
  | _ => .next s

/-- The retain tags of a thread job end, and the pools that they kept power down (R71). -/
def State.endTags (s : State) (j : Nat) : State :=
  s.cores.foldl (fun st e =>
    let c := CoreRef.ofCode e.1
    if (st.core c).retainJob = some j then
      let s1 := st.modCore c fun v => { v with retain := 0, retainJob := none }
      if s1.coreLive c then s1 else s1.powerDown c
    else st) s

/-- The cores of a steal set return to idle (R248); their probes are over. -/
def State.releaseSet (s : State) (j : Nat) : State :=
  let cs := s.setCores j
  let mine (e : Nat × Instr × Operand) : Bool := match e.2.1, e.2.2 with
    | .stealProbeComplete, .thief c _ => cs.contains c
    | _, _ => false
  cs.foldl (fun st c => st.modCore c Core.leaveSet) { s with agenda := s.agenda.filter fun e => !mine e }

/-- JOB_DONE_REPORT (R248): the LAUNCH completes; its graph goes on. -/
def execJobDoneReport (s : State) : Out :=
  match s.ev with
  | .tjob j =>
    match s.tjobs.get? j with
    | none => .next s
    | some v =>
      if v.state ≠ .running ∨ v.wave.1 ≠ 1 then .next s
      else
        let s1 := (s.endTags j).releaseSet j
        let s2 : State := { s1 with tjobs := s1.tjobs.drop j }
        match v.node with
        | some (g, n) => .next ((s2.endNode g n 2 none).advanceGraph g)
        | none => .next (s2.completePacket v.dev v.queue v.seq 0)
  | _ => .next s

/-- JOB_DEADLOCK_REPORT (R248, R71): the queue freezes; a LAUNCH node has failed. -/
def execJobDeadlockReport (s : State) : Out :=
  match s.ev with
  | .tjob j =>
    match s.tjobs.get? j with
    | none => .next s
    | some v =>
      if v.state ≠ .running ∨ v.wave.1 ≠ 2 then .next s
      else
        let s1 := ((s.endTags j).modTJob j fun v => { v with state := .deadlocked }).freezeQueue v.dev v.queue 5 (.tjob j)
        match v.node with
        | some (g, n) => .next ((s1.breakNode g n 5).advanceGraph g)
        | none => .next s1
  | _ => .next s

/-! ## Idle cores (R238) -/

/-- Running thread jobs of a device in the order in which they take idle cores: queue priority, then the earlier LAUNCH. -/
def State.takers (s : State) : List (Nat × TJob) :=
  let running := s.tjobs.filter fun e => e.2.state == .running
  [3, 2, 1, 0].flatMap fun p => running.filter fun e => e.2.prio == p

/-- Idle cores join the steal set of the first running job whose cores they are. -/
def State.joinIdle (s : State) : State :=
  s.takers.foldl (fun st e =>
    (st.jobCores e.2.dev e.2.rect.toNat).foldl (fun st c =>
      if (st.core c).steal = none ∧ st.idleFor e.1 c then st.joinSet e.1 e.2 c else st) st) s

/-! ## Dissolution of a thread job (R349) -/

/-- Whether an event in flight belongs to a thread job: its caravans, updates, messages, requests. -/
def State.eventOf (s : State) (j : Nat) (o : Operand) : Bool :=
  let mine (t : CtxRef) : Bool := (s.ctx t).tjob == some j
  match o with
  | .arrive _ c => mine c.lead.home
  | .caravan c => mine c.lead.home
  | .message m => m.tjob == some j
  | .update u => mine u.src
  | .request r => mine r.src
  | .post r => mine r.src
  | .access r => mine r.src
  | .verdict t _ => mine t
  | .ctx t _ => mine t
  | .answer t _ _ => mine t
  | .ctxCore t _ => mine t
  | .tjob k => k == j
  | .place k _ => k == j
  | _ => false

/-- The key slots of a device that admit a space id are zeroed on every port (R300). -/
def State.zeroKeys (s : State) (d : Nat) (space : BitVec 16) : State :=
  (List.range 24).foldl (fun st k =>
    if (st.port d k).keys.any fun e => e.2.spaces.contains space.toNat then
      st.modPort d k fun v =>
        { v with
          keys := v.keys.filter fun e => !e.2.spaces.contains space.toNat
          zeroed := ((v.keys.filter fun e => e.2.spaces.contains space.toNat).flatMap fun e => e.2.spaces) ++ v.zeroed }
    else st) s

/-- Dissolves a thread job: its contexts halt, what it has in flight is gone, its timed jobs are dissolved, its keys are zeroed,
its cores are idle. -/
def State.dissolveTJob (s : State) (j : Nat) : State :=
  let s1 : State := { s with agenda := s.agenda.filter fun e => !s.eventOf j e.2.2 }
  let s2 : State := { s1 with cores := s1.cores.map fun e =>
    let drop (v : EngineState) : EngineState :=
      { v with fifo := v.fifo.filter fun c => c.tjob != some j, active := v.active.filter fun c => c.tjob != some j }
    (e.1, { e.2 with
      classes := e.2.classes.map fun k => (k.1, { k.2 with queue := k.2.queue.filter fun m => m.tjob != some j })
      inbox := e.2.inbox.filter fun c => (s.ctx c.lead.home).tjob != some j, copy := drop e.2.copy,
      gather := drop e.2.gather, coll := drop e.2.coll }) }
  let s3 : State := { s2 with
    parts := s2.parts.map fun e =>
      (e.1, { e.2 with requests := e.2.requests.filter fun r => (s.ctx r.2.1.src).tjob != some j })
    pipes := s2.pipes.map fun e =>
      (e.1, { e.2 with waiters := e.2.waiters.filter fun r => (s.ctx r.src).tjob != some j }) }
  let s4 := (s.jobCtxs j).foldl (fun st e => st.release (CtxRef.ofCode e.1)) s3
  let s5 := ((s4.jobs.filter fun e => e.2.tjob == some j).map fun e => e.1).foldl (fun st k => st.dissolveJob k) s4
  let s6 := (s5.endTags j).releaseSet j
  let s7 : State := { s6 with tjobs := s6.tjobs.drop j }
  let s8 := (s.jobCtxs j).foldl (fun st e => st.leaveWalks (.ofCode e.1)) s7
  match s.tjobs.get? j with
  | some v => s8.zeroKeys v.dev v.space
  | none => s8

/-! ## QCTL (R349) -/

/-- A QCTL command in a state that Table 4 does not name is ignored and counted. -/
def State.ignoreCommand (s : State) (d : Nat) : State := s.modDev d fun v => { v with ignored := v.ignored + 1 }

/-- The graphs of a queue. -/
def State.graphsOf (s : State) (d q : Nat) : List Nat :=
  (s.graphs.filter fun e => e.2.dev == d && e.2.queue == q).map fun e => e.1

/-- The queue runs again: a cause met meanwhile freezes it anew, else its graphs go on and its head is fetched. -/
def State.runQueue (s : State) (d q : Nat) : State :=
  match (s.queue d q).pending with
  | (cause, who) :: rest =>
    s.modQueue d q fun v => { v with state := 1, cause := cause, culprit := who, pending := rest }
  | [] =>
    let s1 := s.modQueue d q fun v => { v with state := 0, cause := 0, culprit := .none }
    ((s1.graphsOf d q).foldl (fun st g => st.advanceGraph g) s1).beginFetch d q

/-- Restarts a context of a suspended job from its record (R339). -/
def State.restart (s : State) (t : CtxRef) : State :=
  match t.core.dev with
  | none => s
  | some d =>
    let base := (s.dev d).config.ctxbase + 16 * t.n + 256 * t.core.order
    let pc := toWord (s.dramNum d base 8)
    let w1 := toWord (s.dramNum d (base + 8) 8)
    let s1 := s.modCtx t fun c =>
      { c with suspended := false, pc := pc, priv := wbits w1 63 1 == 1, wp := BitVec.ofNat 18 (wbits w1 0 18) }
    if wbits w1 62 1 = 1 then s1.enterTrap t pc ⟨31, 0, 0⟩ else s1.makeReady t

/-- The thread jobs of a queue. -/
def State.tjobsOf (s : State) (d q : Nat) : List (Nat × TJob) :=
  s.tjobs.filter fun e => e.2.dev == d && e.2.queue == q

/-- A suspended job goes on: its contexts restart, and those that had only come to rest go on (R339). -/
def State.resumeJob (s : State) (j : Nat) : State :=
  (s.jobCtxs j).foldl (fun st e =>
    let t := CtxRef.ofCode e.1
    if (st.ctx t).suspended then st.restart t
    else if (st.ctx t).mode = .waiting .rest then (st.modCtx t fun c => { c with phase := 0 }).makeReady t
    else st) (s.modTJob j fun v => { v with state := .running })

/-- The front end resumes a queue (R349), by the cause that froze it. After record-fault the record is due again, at the
COMPL that the queue table holds now. -/
def State.qctlResume (s : State) (d q : Nat) : State :=
  let v := s.queue d q
  match v.state, v.cause, v.culprit with
  | 2, _, _ =>
    let js := (s.tjobsOf d q).filter fun e => e.2.state == .suspended
    (js.foldl (fun st e => st.resumeJob e.1) s).runQueue d q
  | 1, 11, _ =>
    let s1 := (s.modQueue d q fun v => { v with state := 0, cause := 0 }).loadQueue d q
    if (s1.queue d q).en then s1.runQueue d q else s1
  | 1, cause, .tjob j =>
    match s.tjobs.get? j with
    | none => s.runQueue d q
    | some t =>
      let s1 := s.dissolveTJob j
      match t.node with
      | none => (s1.runQueue d q).completePacket d q t.seq cause
      | some (g, n) =>
        let s2 := if cause = 5 then s1 else s1.breakNode g n cause
        (s2.runQueue d q).advanceGraph g
  | 1, cause, .pkt _ _ seq => (s.runQueue d q).completePacket d q seq cause
  | 1, _, _ => s.runQueue d q
  | _, _, _ => s.ignoreCommand d

/-- The front end discards a queue's head (R349): it retires with status 9, and the sequence number advances. -/
def State.qctlDiscard (s : State) (d q : Nat) : State :=
  let v := s.queue d q
  if v.state = 1 ∧ (v.cause = 1 ∨ v.cause = 2) then
    let w0 := imageWord ((s.headBytes d q 64).getD []) 0
    let p : Packet :=
      { seq := v.next, kind := 0, int := wbits w0 54 1 == 1, words := [], taken := true, started := true, copy := .none,
        done := some 9 }
    let s1 := s.modQueue d q fun v =>
      { v with packets := v.packets ++ [p], next := v.next + 1, consumed := v.consumed + 1 + wbits w0 55 1 }
    (s1.runQueue d q).retirePackets d q
  else s.ignoreCommand d

/-! ## Pre-emption of contexts (R338) -/

/-- Drops the events in flight that satisfy a test. -/
def State.cancel (s : State) (p : Instr → Operand → Bool) : State :=
  { s with agenda := s.agenda.filter fun e => !p e.2.1 e.2.2 }

/-- Whether an event in flight satisfies a test. -/
def State.inFlight (s : State) (p : Instr → Operand → Bool) : Bool := s.agenda.any fun e => p e.2.1 e.2.2

/-- A SEND of a context that has not been accepted. -/
def sendOf (t : CtxRef) (i : Instr) (o : Operand) : Bool :=
  match i, o with
  | .messageArrival, .message m => m.src == t && !m.mcast
  | _, _ => false

/-- A SPAWN's entry on its way to a holding core. -/
def pinOf (t : CtxRef) (i : Instr) (o : Operand) : Bool :=
  match i, o with
  | .pinnedEntryAccept, .ctxCore u _ => u == t
  | _, _ => false

/-- A window store's acknowledgement. -/
def ackOf (t : CtxRef) (i : Instr) (o : Operand) : Bool :=
  match i, o with
  | .windowStoreAck, .ctx u _ => u == t
  | _, _ => false

/-- Brings a context of a suspended job to rest, if it can be (R338). -/
def State.bringToRest (s : State) (t : CtxRef) : State :=
  match (s.ctx t).mode with
  | .ready => s.rest t false
  | .waiting (.counter _ _) => s.rest t true
  | .waiting (.recv _) => s.rest t true
  | .waiting (.join _ _) => s.rest t true
  | .waiting .steal => s.rest t true
  | .waiting (.push _) => s.rest t true
  | .waiting (.pop _) => s.rest t true
  | .waiting (.send _ _) =>
    if s.inFlight (sendOf t) then ((s.cancel (sendOf t)).countRcvd (s.ctx t).tjob).rest t true else s
  | .waiting (.window _ _ _ _) => if s.inFlight (ackOf t) then (s.cancel (ackOf t)).rest t true else s
  | .waiting (.reply _ _) => if s.inFlight (pinOf t) then (s.cancel (pinOf t)).rest t true else s
  | _ => s

/-- Whether a context follows a leader of its own job that will be sent home, and so travels with it. -/
def State.ledHome (s : State) (t : CtxRef) : Bool :=
  match (s.ctx t).leader with
  | some l => (s.ctx ⟨t.core, l⟩).home.isSome && (s.ctx ⟨t.core, l⟩).tjob == (s.ctx t).tjob
  | none => false

/-- Takes one context of a suspended job: a guest is sent home with its followers, unless its own leader takes it along; a home
context whose queues have drained is recorded. -/
def State.preemptOne (s : State) (t : CtxRef) : State :=
  if (s.ctx t).suspended then s
  else
    let s1 := s.bringToRest t
    let c := s1.ctx t
    if c.mode ≠ .waiting .rest ∨ c.stores ≠ [] then s1
    else
      match c.home with
      | some _ =>
        let withdrawn := (t.n :: s1.followers t.core t.n).map fun n => (s1.ctx ⟨t.core, n⟩).phase == 1
        if !s1.ledHome t ∧ s1.canDepart t then s1.returnHome t c.pc (.preempt withdrawn) else s1
      | none => if c.updates = [] then s1.preempt t (c.phase == 1) else s1

/-- The front end suspends a running queue (R338, R349); one that its descriptor enables runs, fetched or not (R341, R350). -/
def State.qctlSuspend (s : State) (d q : Nat) : State :=
  let s := if (s.queue d q).en then s else s.loadQueue d q
  if (s.queue d q).state ≠ 0 then s.ignoreCommand d
  else
    let s1 := s.modQueue d q fun v => { v with state := 2, cause := 10 }
    ((s.tjobsOf d q).filter fun e => e.2.state == .running).foldl (fun st e =>
      (st.modTJob e.1 fun v => { v with state := .suspended }).dueAt s.wcc .qctlSuspend (.tjob e.1)) s1

/-- The pre-emption of a suspended thread job goes on until every context of it has left the rotation (R338). -/
def State.preemptJob (s : State) (j : Nat) : State :=
  match s.tjobs.get? j with
  | none => s
  | some v =>
    if v.state ≠ .suspended then s
    else
      let s1 := (s.jobCtxs j).foldl (fun st e => st.preemptOne (CtxRef.ofCode e.1)) s
      if (s1.jobCtxs j).all fun e => e.2.suspended then s1 else s1.dueAt (s.wcc + 1) .qctlSuspend (.tjob j)

/-- A write of a queue's QCTL word reaches the front end; bits [1:0] are the command (R349, R350). -/
def State.qctl (s : State) (d q command : Nat) : State :=
  match command % 4 with
  | 1 => s.qctlResume d q
  | 2 => s.qctlSuspend d q
  | 3 => s.qctlDiscard d q
  | _ => s.ignoreCommand d

/-! ## Wake writes (R351, R353) -/

/-- The wake sequence of a gated device begins; it ends within 900 µs. -/
def State.startWake (s : State) (d : Nat) : State :=
  if (s.dev d).waking then s
  else (s.modDev d fun v => { v with waking := true }).within 945000 .wakeSequenceEnd (.dev d)

/-- A wake write reaches the island (R351): latch bit q is set whatever the power state; a gated device begins to wake. -/
def State.wake (s : State) (d q : Nat) : State :=
  if 64 ≤ q then s
  else
    let s1 := s.modDev d fun v => { v with latch := v.latch ||| (1 <<< q : BitVec 64) }
    if (s1.dev d).power = 1 then s1.startWake d else s1.beginFetch d q

end Sys2Proof.Machine
end

