-- ==== Sys2Proof/Machine/Power.lean ====
section
/-! DEFINITION. The host's words and accesses (R305, R306, R322, R350, R362), power (R352 to R354), boot (R355), attestation and
the side band (R358 to R360), snapshots (R340), the reload of the firewall (R357). -/

namespace Sys2Proof.Machine

/-! ## The words of BAR0 (Table 5 of R350) -/

/-- DEVSTAT. -/
def State.devstat (s : State) (d : Nat) : Word :=
  let v := s.dev d
  toWord (v.power % 8 * 2 ^ 61 + v.bootStatus % 32 * 2 ^ 56 + v.ignored % 2 ^ 16 * 2 ^ 32 + s.disabledQueues d % 2 ^ 16)

/-- QSTAT q, of the queue as its descriptor now stands. -/
def State.qstat (s : State) (d q : Nat) : Word :=
  let v := (s.loadQueue d q).queue d q
  toWord (v.state % 4 * 2 ^ 62 + v.cause % 256 * 2 ^ 48 + v.next % 2 ^ 32)

/-- What a host read of BAR0 returns at an offset of a device's 8 MiB. -/
def State.bar0Word (s : State) (d off : Nat) : Word :=
  if off = 0x600 then s.devstat d
  else if 0x200 ≤ off ∧ off < 0x400 ∧ off % 8 = 0 then s.qstat d ((off - 0x200) / 8)
  else 0

/-- What a host write of BAR0 does at an offset of a device's 8 MiB: WAKE q takes any value, QCTL q a command, and the words that
cannot be written ignore it. -/
def State.bar0Store (s : State) (d off : Nat) (v : Word) : State :=
  if off % 8 ≠ 0 then s
  else if off < 0x200 then s.wake d (off / 8)
  else if 0x400 ≤ off ∧ off < 0x600 then s.qctl d ((off - 0x400) / 8) v.toNat
  else s

/-! ## BAR2 (R305, R306, R322, R353) -/

/-- The device at position g of the group of a bridging device. [log 29] -/
def State.groupDev (s : State) (bridge g : Nat) : Option Nat :=
  (List.range 8).findSome? fun i =>
    let d := bridge / 8 * 8 + i
    let v := s.dev d
    if v.power ≠ 2 ∧ v.bootStatus = 0 ∧ v.config.group = g then some d else none

/-- Whether entry i of the host access table admits an access (Table 5 of R322). -/
def State.hostEntry (s : State) (bridge g a len : Nat) (wr : Bool) (i : Nat) : Bool :=
  let base := (s.dev bridge).config.roottab + 16 * i
  let w0 := toWord (s.dramNum bridge base 8)
  let w1 := toWord (s.dramNum bridge (base + 8) 8)
  wbits w0 63 1 == 1 && wbits w0 (if wr then 61 else 62) 1 == 1 && bit (wbits w0 39 8) g
    && decide (wbits w0 21 18 * 2 ^ 21 ≤ a) && decide (a + len ≤ wbits w1 21 18 * 2 ^ 21)

/-- Whether the bridge holds a host access: its device is gated or waking (R353), or a line of it moves (R313). -/
def State.heldAtBridge (s : State) (bridge : Nat) (r : HostReq) : Bool :=
  let waits (off n : Nat) : Bool := match s.groupDev bridge (off / 2 ^ 39) with
    | none => false
    | some d =>
      let a := off % 2 ^ 39
      (s.dev d).power != 0 || (s.dev d).waking
        || (List.range ((a % 128 + n + 127) / 128)).any fun k => s.moving d (a / 128 * 128 + 128 * k)
  match r with
  | .read off len _ => waits off len
  | .write off bs => waits off bs.length
  | .wake _ _ | .qctl _ _ _ | .word _ _ | .store _ _ => false

/-- Performs one host access: the answer to a read, the write at the home slices, a write of a BAR0 word (R305, R350). -/
def State.hostAct (s : State) (bridge : Nat) (r : HostReq) : State :=
  match r with
  | .read off len tag =>
    match s.groupDev bridge (off / 2 ^ 39) with
    | none => s.tell (.unsupportedRequest tag)
    | some d => s.tell (.readReply tag (s.dramGet d (off % 2 ^ 39) len))
  | .write off bs =>
    match s.groupDev bridge (off / 2 ^ 39) with
    | none => s
    | some d => s.dramSet d (off % 2 ^ 39) bs
  | .wake d q => s.wake d q
  | .qctl d q command => s.qctl d q command
  | .word off tag =>
    match s.groupDev bridge (off / 2 ^ 23) with
    | none => s.tell (.unsupportedRequest tag)
    | some d => s.tell (.readReply tag (leBytes 8 (s.bar0Word d (off % 2 ^ 23)).toNat))
  | .store off v =>
    match s.groupDev bridge (off / 2 ^ 23) with
    | none => s
    | some d => s.bar0Store d (off % 2 ^ 23) v

/-- Performs the accesses at a bridge in their order, up to one that is held. -/
def State.drainHeld (s : State) (bridge : Nat) : Nat → State
  | 0 => s
  | n + 1 =>
    match (s.dev bridge).heldBar2 with
    | [] => s
    | r :: rest =>
      if s.heldAtBridge bridge r then s
      else ((s.modDev bridge fun v => { v with heldBar2 := rest }).hostAct bridge r).drainHeld bridge n

/-- A host access goes behind those that stand before it at the bridge, across the whole group (R306). -/
def State.hostAsk (s : State) (bridge : Nat) (r : HostReq) : State :=
  let s1 := s.modDev bridge fun v => { v with heldBar2 := v.heldBar2 ++ [r] }
  s1.drainHeld bridge (s1.dev bridge).heldBar2.length

/-- The bridging device of a device's group, if one is enabled. [log 29] -/
def State.bridgeOf (s : State) (d : Nat) : Option Nat :=
  ((List.range 8).map fun i => d / 8 * 8 + i).find? fun b => (s.dev b).config.bridge

/-- A write of a BAR0 word of a device reaches it through the bridge of its group. -/
def State.viaBridge (s : State) (d : Nat) (r : HostReq) : State :=
  match s.bridgeOf d with
  | some b => s.hostAsk b r
  | none => s.hostAct d r

/-- A BAR2 access: checked at the bridge, then performed behind those that stand before it; one for a gated device wakes
it. -/
def State.bar2 (s : State) (bridge off len : Nat) (wr : Bool) (r : HostReq) (tag : Nat) : State :=
  let g := off / 2 ^ 39
  if !(s.dev bridge).config.bridge ∨ 8 ≤ g then s
  else
    match s.groupDev bridge g with
    | none => if wr then s else s.tell (.unsupportedRequest tag)
    | some d =>
      if !(List.range 16).any fun i => s.hostEntry bridge g (off % 2 ^ 39) len wr i then
        let s1 := s.modDev bridge fun v => { v with refusals := v.refusals + 1 }
        if wr then s1 else s1.tell (.completerAbort tag)
      else (if (s.dev d).power = 1 then s.startWake d else s).hostAsk bridge r

/-- HOST_BAR2_READ (R305, R322); a read of a BAR0 word (R350), an AtomicOps request, which is not supported (R304). -/
def execHostBar2Read (s : State) : Out :=
  match s.ev with
  | .hostRead bridge off len tag => .next (s.bar2 bridge off len false (.read off len tag) tag)
  | .hostWord bridge off tag =>
    .next (if (s.dev bridge).config.bridge ∧ off < 2 ^ 26 then s.hostAsk bridge (.word off tag) else s)
  | .hostAtomic bridge tag => .next (if (s.dev bridge).config.bridge then s.tell (.unsupportedRequest tag) else s)
  | _ => .next s

/-- HOST_BAR2_WRITE (R305, R306, R322); a write of a BAR0 word (R350). -/
def execHostBar2Write (s : State) : Out :=
  match s.ev with
  | .hostStore bridge off v =>
    .next (if (s.dev bridge).config.bridge ∧ off < 2 ^ 26 then s.hostAsk bridge (.store off v) else s)
  | .hostWrite bridge off bs => .next (s.bar2 bridge off bs.length true (.write off bs) 0)
  | _ => .next s

/-- WAKE_WRITE (R351, R306). -/
def execWakeWrite (s : State) : Out :=
  match s.ev with
  | .queue d q => .next (s.viaBridge d (.wake d q))
  | _ => .next s

/-- QCTL_RESUME (R349): command 1; or a host write of the QCTL word with the command it carries (R350). -/
def execQctlResume (s : State) : Out :=
  match s.ev with
  | .queue d q => .next (s.viaBridge d (.qctl d q 1))
  | .qctl d q command => .next (s.viaBridge d (.qctl d q command))
  | _ => .next s

/-- QCTL_SUSPEND (R338, R349): command 2; or the front end's work on the pre-emption of a thread job, which goes on. -/
def execQctlSuspend (s : State) : Out :=
  match s.ev with
  | .queue d q => .next (s.viaBridge d (.qctl d q 2))
  | .tjob j => .next (s.preemptJob j)
  | _ => .next s

/-- QCTL_DISCARD (R349): command 3. -/
def execQctlDiscard (s : State) : Out :=
  match s.ev with
  | .queue d q => .next (s.viaBridge d (.qctl d q 3))
  | _ => .next s

/-- HOST_LINK_TRAINING (R362): the highest of PCIe 6.0, 5.0 and 4.0 that both ends support. -/
def execHostLinkTraining (s : State) : Out :=
  match s.ev with
  | .devNum d host =>
    if (s.dev d).config.bridge ∧ 4 ≤ host then .next (s.modDev d fun v => { v with linkRate := Nat.min 6 host }) else .next s
  | _ => .next s

/-! ## Power (R352 to R354) -/

/-- Whether a queue is served and idle (R348), or not served. -/
def State.queueRests (s : State) (d q : Nat) : Bool :=
  !(s.queue d q).fetching && (s.queue d q).packets.isEmpty
    && (!s.descEnabled d q || !s.descOk d q || (s.loadQueue d q).queueIdle d q)

/-- Whether every queue of a device is idle and no job runs on it (R352). -/
def State.devIdle (s : State) (d : Nat) : Bool :=
  !(s.tjobs.any fun e => e.2.dev == d) && !(s.graphs.any fun e => e.2.dev == d) && !(s.jobs.any fun e => e.2.part.dev == d)
    && (List.range 64).all fun q => s.queueRests d q

/-- Notes since when each device that is gated at all has been idle (R352, R355). -/
def State.noteIdle (s : State) : State :=
  { s with devs := s.devs.map fun e =>
      if e.2.config.idle = 0 then e
      else (e.1, { e.2 with idleSince := if s.devIdle e.1 then some (e.2.idleSince.getD s.wcc) else none }) }

/-- Drops the records of a table numbered from lo up to hi. -/
def Table.dropRange {α : Type} (t : Table α) (lo hi : Nat) : Table α :=
  t.filter fun e => !(decide (lo ≤ e.1) && decide (e.1 < hi))

/-- VDD_CORE is off: pools, pipe buffers, slices and registers lose their contents; the Phoub column stays, when its save
in HBM brings it back (R352, R353). -/
def State.loseCore (s : State) (d : Nat) (keepColumn : Bool) : State :=
  let kept (code : Nat) : Bool := keepColumn && s.inColumn (.ofCode code)
  let mine (code : Nat) : Bool := decide (d * 2048 ≤ code) && decide (code < (d + 1) * 2048)
  let s1 : State := { s with
    cores := s.cores.filter fun e => !mine e.1 || kept e.1
    ctxs := s.ctxs.filter fun e => !mine (e.1 / 16) || kept (e.1 / 16)
    pool := s.pool.filter fun c => !mine (c.1 / 2 ^ 18) || kept (c.1 / 2 ^ 18)
    pipes := Table.dropRange s.pipes (d * 256) (d * 256 + 256)
    streams := Table.dropRange s.streams (d * 2048) (d * 2048 + 2048)
    wbuf := s.wbuf.clear (d * 2 ^ 29) (2 ^ 29)
    abuf := s.abuf.clear (d * 2 ^ 29) (2 ^ 29)
    slots := Table.dropRange s.slots (d * 2 ^ 25) ((d + 1) * 2 ^ 25)
    parts := Table.dropRange s.parts (d * 8) (d * 8 + 8)
    ports := Table.dropRange s.ports (d * 24) (d * 24 + 24) }
  s1.modDev d fun v =>
    { v with
      domB := [], domL := [], hmask := [], slotmap := Device.reset.slotmap, change := none, slotWait := none, moved := [],
      tlb := [], walks := [], fwValid := false, firewall := [], paths := [], snapWriting := false, snap := [] }

/-- Whether a wake write reaches a device in the current cycle. -/
def State.wakeComes (s : State) (d : Nat) : Bool :=
  s.agenda.any fun e => decide (e.1 ≤ s.wcc) && (match e.2.1, e.2.2 with
    | .wakeWrite, .queue x _ => x == d
    | _, _ => false)

/-- Whether a device is to be gated: idle for IDLE (R352, R355), and no wake write has come (R353). -/
def State.gateDue (s : State) (d : Nat) : Bool :=
  let v := s.dev d
  v.served && v.config.idle != 0 && v.latch == 0 && (match v.idleSince with
      | some t => decide (t + v.config.idle * 1050 ≤ s.wcc)
      | none => false)
    && s.devIdle d && !s.wakeComes d

/-- The members of aligned groups on a package that has left the domain, lost every port or lost its power are lost to them (R294). -/
def State.leaveGroups (s : State) (d : Nat) : State :=
  s.groups.foldl (fun st g =>
    match g.2.filter fun m => m.dev == d with
    | [] => st
    | ms => st.loseMembers g.1 ms) s

/-- POWER_GATE_ENTRY (R352, R353): every dirty line is written back first; the device's members of aligned groups are lost with
their partitions (R294). [log 110] -/
def execPowerGateEntry (s : State) : Out :=
  match s.ev with
  | .dev d =>
    if !s.gateDue d then .next s
    else
      let s1 : State := { s with dirty := s.dirty.filter fun e => !(e.1 / 2 ^ 32 == d) }
      .next (((s1.leaveGroups d).loseCore d true).modDev d fun v => { v with power := 1, idleSince := none })
  | _ => .next s

/-- WAKE_SEQUENCE_END (R353): the device is active, held accesses are performed, and the latched bits are replayed in
ascending queue number. -/
def execWakeSequenceEnd (s : State) : Out :=
  match s.ev with
  | .dev d =>
    if !(s.dev d).waking then .next s
    else
      let s1 := s.modDev d fun v => { v with power := 0, waking := false }
      let s2 := (List.range 8).foldl (fun st i =>
        st.drainHeld (d / 8 * 8 + i) (st.dev (d / 8 * 8 + i)).heldBar2.length) s1
      let (k, s3) := s2.pick 240
      .next ((List.range 64).foldl (fun st q => if (st.dev d).latch.getLsbD q then st.fetchAt d q (st.wcc + 1 + k) else st) s3)
  | _ => .next s

/-- State 2 (R352): only the island is held; the thread jobs of the device are gone, and its members of aligned groups
(R294). -/
def State.powerOff (s : State) (d boot : Nat) : State :=
  let js := (s.tjobs.filter fun e => e.2.dev == d).map fun e => e.1
  let s1 := ((js.foldl (fun st j => st.dissolveTJob j) s).leaveGroups d).loseCore d false
  let s2 : State := { s1 with
    dram := s1.dram.clear (dramAddr d 0) (2 ^ 39)
    dirty := s1.dirty.filter fun e => !(e.1 / 2 ^ 32 == d)
    graphs := s1.graphs.filter fun e => !(e.2.dev == d)
    jobs := s1.jobs.filter fun e => !(e.2.part.dev == d)
    queues := Table.dropRange s1.queues (d * 64) (d * 64 + 64)
    ues := Table.dropRange s1.ues (d * 64) (d * 64 + 64) }
  s2.modDev d fun v =>
    { Device.reset with
      latch := v.latch, power := 2, bootStatus := boot, leaf := v.leaf, floor := v.floor, ignored := v.ignored,
      drops := v.drops, captures := v.captures }

/-- SUPPLY_FAULT (R354). -/
def execSupplyFault (s : State) : Out :=
  match s.ev with
  | .dev d => .next (s.powerOff d 4)
  | _ => .next s

/-! ## Boot (R355) -/

/-- Where a device's boot flash begins in `flash`. -/
def flashBase (d : Nat) : Nat := d * 2 ^ 32

/-- The fields of the configuration table (Table 7 of R355). -/
def tableConfig (bs : List Byte) : BootConfig :=
  { colx0 := imageNum bs 0x008 1, colx1 := imageNum bs 0x009 1, roles := imageNum bs 0x010 16, qbase := imageNum bs 0x020 8,
    spbase := imageNum bs 0x028 8, fwbase := imageNum bs 0x030 8, snapbase := imageNum bs 0x038 8,
    prebase := imageNum bs 0x040 8, ctxbase := imageNum bs 0x048 8, roottab := imageNum bs 0x050 8,
    parts := imageNum bs 0x058 4, bridge := bit (imageNum bs 0x060 8) 63, group := imageNum bs 0x060 8 % 8,
    idle := imageNum bs 0x068 8 }

/-- The role codes of the column's cores, by column then y. -/
def BootConfig.roleCodes (c : BootConfig) : List Nat :=
  (List.range (if c.colx1 = 0xFF then 16 else 32)).map fun i => c.roles / 16 ^ i % 16

/-- Whether the boot engine accepts a table: PUBKEY's hash, the signature, VERSION, a core of role 1. -/
def tableAccepted (d floor : Nat) (bs sig : List Byte) : Bool :=
  decide (Config.shake256 ((bs.drop 0x090).take 68) = Config.fusedHash d)
    && Config.xmssVerify ((bs.drop 0x090).take 68) bs sig && decide (floor ≤ imageNum bs 4 4)
    && (tableConfig bs).roleCodes.contains 1

/-- The clusters of a partition by PARTS. -/
def partClusters (parts k : Nat) : List Nat := (List.range 8).filter fun i => parts / 16 ^ i % 16 == k

/-- The partitions are formed from PARTS (R181, R355). -/
def State.formParts (s : State) (d parts : Nat) : State :=
  (List.range 8).foldl (fun st k =>
    match partClusters parts k with
    | [] => st
    | cs => st.modPart ⟨d, k⟩ fun _ => { Partition.reset with formed := true, clusters := cs }) s

/-- POWER_ON_BOOT (R355): the table, then the firmware image, of which the hash is held in the 16 bytes at 0x080.
[log 26] -/
def execPowerOnBoot (s : State) : Out :=
  match s.ev with
  | .dev d =>
    let v := s.dev d
    if v.bootStatus ≠ 1 ∨ v.power ≠ 0 then .next s
    else
      let bs := s.flash.getBytes (flashBase d) 0x100
      let sig := s.flash.getBytes (flashBase d + 0x100) 2820
      if !tableAccepted d v.floor bs sig then .next (s.modDev d fun v => { v with bootStatus := 2 })
      else
        let version := imageNum bs 4 4
        let image := s.flash.getBytes (flashBase d + imageNum bs 0x070 8) (imageNum bs 0x078 8)
        let hash := Config.shake256 image
        let s1 := s.modDev d fun v => { v with floor := Nat.max v.floor version }
        if hash.take 16 ≠ (bs.drop 0x080).take 16 then .next (s1.modDev d fun v => { v with bootStatus := 3 })
        else
          let c := tableConfig bs
          let s2 := s1.modDev d fun v =>
            { v with bootStatus := 0, config := c, version := version, measures := Config.shake256 bs ++ hash }
          let s3 : State := { s2 with dram := s2.dram.clear (dramAddr d c.roottab) 256 }
          .next (s3.formParts d c.parts)
  | _ => .next s

/-! ## Side band and attestation (R358 to R360) -/

/-- SIDEBAND_READ_STATUS (R360). -/
def execSidebandReadStatus (s : State) : Out :=
  match s.ev with
  | .dev d => .next (s.tell (.status d (s.devstat d) (s.dev d).latch))
  | _ => .next s

/-- SIDEBAND_SET_POWER (R352, R360): off; on again, the boot following; a gated device wakes. While a supply fault stands, the
device takes no wake (R354). -/
def execSidebandSetPower (s : State) : Out :=
  match s.ev with
  | .devNum d p =>
    let v := s.dev d
    if v.bootStatus = 4 then .next s
    else if p = 2 then .next (if v.power = 2 then s else s.powerOff d 1)
    else if p = 0 then
      if v.power = 2 then .next (s.modDev d fun v => { v with power := 0, bootStatus := 1 })
      else if v.power = 1 then .next (s.startWake d)
      else .next s
    else .next s
  | _ => .next s

/-- SIDEBAND_CLEAR_FAULT (R354, R360). -/
def execSidebandClearFault (s : State) : Out :=
  match s.ev with
  | .dev d => .next (if (s.dev d).bootStatus = 4 then s.modDev d fun v => { v with bootStatus := 1 } else s)
  | _ => .next s

/-- SIDEBAND_NAME_SNAPSHOT (R340, R360): a cycle Z that is still to come. -/
def execSidebandNameSnapshot (s : State) : Out :=
  match s.ev with
  | .devNum d z => .next (if s.wcc ≤ z then s.dueAt z .snapshotCapture (.devNum d z) else s)
  | _ => .next s

/-- The report of a device's attestation role for a nonce of 32 bytes (R359): the index counter is raised past the leaf before the
signature leaves (R358). -/
def State.attest (s : State) (d : Nat) (nonce : List Byte) : State :=
  let v := s.dev d
  if nonce.length ≠ 32 then s
  else if 2 ^ 20 ≤ v.leaf then s.tell (.attestation d none)
  else
    let body := nonce ++ Config.identity d ++ v.measures ++ leBytes 4 v.version ++ leBytes 4 v.leaf
    let s1 := s.modDev d fun v => { v with leaf := v.leaf + 1 }
    s1.tell (.attestation d (some (body ++ Config.xmssSign d v.leaf body)))

/-- Whether a column core has the attestation role (R355). -/
def State.attests (s : State) (c : CoreRef) : Bool :=
  match c with
  | .thread d x y =>
    let g := (s.dev d).config
    s.inColumn c && g.roles / 16 ^ ((if x = g.colx0 then 0 else 16) + y) % 16 == 4
  | _ => false

/-- SIDEBAND_ATTEST (R358, R359): a report for the side band, or in answer to a message to the attestation role that the firewall
admits, whose words are the nonce. [log 118] -/
def execSidebandAttest (s : State) : Out :=
  match s.ev with
  | .devBytes d nonce => .next (s.attest d nonce)
  | .message m =>
    let d := m.dest.dev.getD 0
    .next (if s.attests m.dest ∧ s.firewall d m then s.attest d (m.words.map fun w => leBytes 8 w.toNat).flatten else s)
  | _ => .next s

/-! ## Snapshots (R340) -/

/-- The partition that a pipe's cluster is in. -/
def State.partOf (s : State) (p : PipeRef) : Option PartRef :=
  ((List.range 8).find? fun k =>
    (s.part ⟨p.dev, k⟩).formed && (s.part ⟨p.dev, k⟩).clusters.contains (p.p / 24)).map fun k => ⟨p.dev, k⟩

/-- JOB and STATE of a pipe's record. [log 28] -/
def State.pipeState (s : State) (p : PipeRef) : Nat × Nat :=
  let held := ((s.partOf p).map fun k => (s.part k).held).getD false
  match (s.pipe p).job, (s.pipe p).suspended with
  | some j, _ =>
    let frozen := ((s.jobs.get? j).map fun v => v.state == .frozen).getD false
    (j % 0xFFFF, if frozen then 3 else if held then 2 else 1)
  | none, some j => (j % 0xFFFF, 4)
  | none, none => (0xFFFF, 0)

/-- The next word offsets of a pipe's streams and its conflict count: those of the job that runs on it, or of the suspended one that
it holds (R334). -/
def State.pipeProgress (s : State) (p : PipeRef) : List Nat × Nat :=
  match (s.pipe p).job, (s.pipe p).saved with
  | none, some x => (x.streams.map fun t => t.pos, x.conflicts)
  | _, _ => (engines.map fun e => (s.stream ⟨p, e⟩).pos, (s.pipe p).conflicts)

/-- The record of pipe p (Table 11). -/
def State.pipeRecord (s : State) (p : PipeRef) : List Word :=
  let (j, st) := s.pipeState p
  let (pos, conflicts) := s.pipeProgress p
  [toWord (((s.partOf p).map fun k => (s.part k).pcc).getD 0), toWord (j * 2 ^ 48 + st * 2 ^ 45)]
    ++ (pos.map fun n => toWord (n % 2 ^ 16)) ++ [toWord conflicts]

/-- A mask of contexts. -/
def State.ctxMask (s : State) (c : CoreRef) (f : CtxMode → Bool) : Nat :=
  (List.range 16).foldl (fun n k => if f (s.ctx ⟨c, k⟩).mode then n + 2 ^ k else n) 0

/-- The record of a core (Table 11). -/
def State.coreRecord (s : State) (c : CoreRef) : List Word :=
  [toWord (s.ctxMask c (fun m => m != .free) + s.ctxMask c (fun m => m == .ready) * 2 ^ 16
      + s.ctxMask c (fun m => m == .away) * 2 ^ 32)]
    ++ ((List.range 16).map fun k => if (s.ctx ⟨c, k⟩).mode = .free then 0 else (s.ctx ⟨c, k⟩).pc)
    ++ List.replicate 7 0

/-- The snapshot area's core c. -/
def snapCore (d i : Nat) : CoreRef := if i < 1024 then .thread d (i % 64) (i / 64) else .edge d (i - 1024)

/-- The words of records at consecutive addresses from an offset on. -/
def placed (off : Nat) (ws : List Word) : List (Nat × Word) := ws.zipIdx.map fun x => (off + 8 * x.2, x.1)

/-- SNAPSHOT_CAPTURE (R340): every core and pipe latches its record; a trigger that comes while records are being written
counts as dropped. -/
def execSnapshotCapture (s : State) : Out :=
  match s.ev with
  | .devNum d z =>
    let v := s.dev d
    if v.snapWriting then .next (s.modDev d fun v => { v with drops := v.drops + 1 })
    else
      let n := v.captures + 1
      let head := placed 0 [toWord z, toWord (v.drops % 2 ^ 32 * 2 ^ 32 + n % 2 ^ 32)]
      let pipes := (List.range 192).flatMap fun p => placed (0x40 + 64 * p) (s.pipeRecord ⟨d, p⟩)
      let cores := (List.range 1152).flatMap fun i => placed (0x3040 + 192 * i) (s.coreRecord (snapCore d i))
      let s1 := s.modDev d fun v =>
        { v with snapWriting := true, drops := 0, captures := n, snap := head ++ pipes ++ cores }
      .next (s1.later .snapshotWriteDone (.dev d))
  | _ => .next s

/-- SNAPSHOT_WRITE_DONE (R340): the records stand in the snapshot area. -/
def execSnapshotWriteDone (s : State) : Out :=
  match s.ev with
  | .dev d =>
    let v := s.dev d
    if !v.snapWriting then .next s
    else
      let s1 := v.snap.foldl (fun st x => st.dramSetNum d (v.config.snapbase + x.1) 8 x.2.toNat) s
      .next (s1.modDev d fun v => { v with snapWriting := false, snap := [] })
  | _ => .next s

/-! ## The firewall's registers (R357) -/

/-- FIREWALL_RELOAD (R357): every router takes the 256 entries of the table. -/
def execFirewallReload (s : State) : Out :=
  match s.ev with
  | .dev d =>
    let base := (s.dev d).config.fwbase
    let entries := (List.range 256).map fun i =>
      (i, (toWord (s.dramNum d (base + 16 * i) 8), toWord (s.dramNum d (base + 16 * i + 8) 8)))
    .next (s.modDev d fun v => { v with fwValid := true, firewall := entries })
  | _ => .next s

end Sys2Proof.Machine
end

