-- ==== Sys2Proof/Machine/Fabric.lean ====
section
/-! DEFINITION. The fabric: loss and readmission of switches and ports (R277, R286 to R288), the link's recovery (R297), packets
and control flits (R291 to R295, R298), keys (R299, R300), quotas (R282), the domain's formation (R285, R290). -/

namespace Sys2Proof

/-- The home device of a caravan. -/
def Caravan.homeDev (c : Caravan) : Option Nat := c.lead.home.core.dev

/-- The threads of a caravan that satisfy a test, as a caravan of their own. -/
def Caravan.part (c : Caravan) (p : Traveller → Bool) : Option Caravan :=
  match (c.lead :: c.followers).filter p with
  | [] => none
  | v :: rest => some { c with lead := v, followers := rest }

/-- KIND of a packet (Table 3 of R295). -/
def FabricPacket.kindOf (p : FabricPacket) : Nat := (p.w0 >>> 60).toNat

/-- SRC of a packet. -/
def FabricPacket.srcOf (p : FabricPacket) : Nat := Machine.wbits p.w0 36 8
/-- SEQ: the end-to-end sequence number. -/
def FabricPacket.seqOf (p : FabricPacket) : Nat := Machine.wbits p.w1 32 32

/-- Whether a packet's source keeps it until it is acknowledged (R298). -/
def FabricPacket.kept (p : FabricPacket) : Bool := p.kindOf == 1 || p.kindOf == 2 || p.kindOf == 4 || p.kindOf == 6

/-- The core that sent a packet which its source keeps. -/
def FabricPacket.sender (p : FabricPacket) : CoreRef :=
  match p.content with
  | .read t | .write t => t.core
  | .message m => m.src.core
  | .update u => u.core
  | _ => .thread p.srcOf 0 0

end Sys2Proof

namespace Sys2Proof.Machine

/-! ## What a device meets when it loses a switch (R277, R279, R286) -/

/-- The caravan that an event in flight carries. -/
def eventCaravan (i : Instr) (o : Operand) : Option Caravan :=
  match i, o with
  | .caravanAdmission, .arrive _ c => some c
  | .caravanReturnHome, .caravan c => some c
  | _, _ => none

/-- The same event with another caravan. -/
def withCaravan (o : Operand) (c : Caravan) : Operand :=
  match o with
  | .arrive dest _ => .arrive dest c
  | .caravan _ => .caravan c
  | _ => o

/-- Whether a thread of a caravan is lost to its home device d: with `all` by the switch losses of which the device holds the
notice; else by the loss of its port to k, which leaves what resides on a pair (R94, R277, R284, R286). -/
def State.lostTo (s : State) (d k : Nat) (all : Bool) (c : Caravan) (v : Traveller) : Bool :=
  v.home.core.dev == some d && c.via.any fun x => if all then s.viaDead x && s.viaTold d x else x.switch == k && !x.pair

/-- The threads in transit that are lost to a device go to CARAVAN_LOST. -/
def State.loseTransits (s : State) (d k : Nat) (all : Bool) : State :=
  let gone := s.agenda.filterMap fun e => (eventCaravan e.2.1 e.2.2).bind fun c => c.part (s.lostTo d k all c)
  let left := s.agenda.filterMap fun e =>
    match eventCaravan e.2.1 e.2.2 with
    | some c => (c.part fun v => !s.lostTo d k all c v).map fun c => (e.1, e.2.1, withCaravan e.2.2 c)
    | none => some e
  gone.foldl (fun st c => st.dueAt st.wcc .caravanLost (.caravan c)) { s with agenda := left }

/-- The switch cores of switch k. -/
def switchCores (k : Nat) : List CoreRef := (List.range 64).map fun b => .switch k b

/-- The caravans of a device that wait in the inboxes of switch k: lost, or with `all` sent on to the pair's survivor (R277,
R284). -/
def State.loseInboxes (s : State) (d k : Nat) (all : Bool) : State :=
  (switchCores k).foldl (fun st c =>
    match (st.core c).inbox with
    | [] => st
    | box =>
      let gone := box.filterMap fun v => v.part (s.lostTo d k all v)
      let left := box.filterMap fun v => v.part fun x => !s.lostTo d k all v x
      let moves (v : Caravan) : Bool := all && v.mirrored && v.homeDev == some d
      let s1 := st.modCore c fun v => { v with inbox := left.filter fun v => !moves v }
      let s2 := gone.foldl (fun st v => st.dueAt st.wcc .caravanLost (.caravan v)) s1
      (left.filter moves).foldl (fun st v => st.dueAt st.wcc .caravanAdmission (.arrive c v)) s2) s

/-- Events in flight for a context of a switch that is lost to its thread no longer act, and it stands in no queue of a unit. -/
def State.cutGuest (s : State) (t : CtxRef) : State :=
  let mine (_ : Instr) (o : Operand) : Bool := match o with
    | .ctx u _ => u == t
    | .answer u _ _ => u == t
    | .ctxCore u _ => u == t
    | .verdict u _ => u == t
    | _ => false
  ((s.cancel mine).leaveWalks t).modCore t.core fun v =>
    { v with divQueue := v.divQueue.filter fun e => e.1 != t.n, normQueue := without v.normQueue t.n }

/-- A guest of a lost switch: its thread is lost, or, on a mirrored range whose pair lives, goes on at the survivor from the
state that the partner holds of it (R284). A port's loss leaves a guest on a mirrored range where it is (R286). -/
def State.loseGuest (s : State) (t : CtxRef) (pairLost all : Bool) : State :=
  let c := s.ctx t
  if c.paired ∧ !pairLost then
    if !all ∨ c.leader ≠ none then s
    else
      let fs := (s.followers t.core t.n).map fun n => (⟨t.core, n⟩ : CtxRef)
      let k := (t.core.switch?).getD 0
      let cv : Caravan :=
        { lead := s.heldCopy t, followers := fs.map s.heldCopy, via := [s.viaNow true k], mirrored := true, why := .goOn }
      let s1 := fs.foldl (fun st u => ((st.countSent (st.ctx u).tjob).cutGuest u).vacate u 0) (s.countSent c.tjob)
      ((s1.cutGuest t).vacate t 0).dueAt s.wcc .caravanAdmission (.arrive t.core cv)
  else
    match c.home with
    | none => s
    | some h => (((s.countSent c.tjob).cutGuest t).vacate t 0).resumeLost h

/-- The guests of a device on the switch cores of k. -/
def State.guestsOn (s : State) (d k : Nat) : List CtxRef :=
  (switchCores k).flatMap fun c => (List.range 16).filterMap fun n =>
    let v := s.ctx ⟨c, n⟩
    match v.home with
    | some h => if v.mode ≠ .free ∧ h.core.dev = some d then some ⟨c, n⟩ else none
    | none => none

/-- Puts an update into a list in the order of issue (R278). -/
def insertUpdate (x : RemoteUpdate × Nat) : List (RemoteUpdate × Nat) → List (RemoteUpdate × Nat)
  | [] => [x]
  | y :: rest => if x.1.id < y.1.id then x :: y :: rest else y :: insertUpdate x rest

/-- SPAWNU updates of a device for an unmirrored range of k, or for a pair that is lost, are dropped with tier-loss or
tier-stale, in the order of their issue (R277 to R279). -/
def State.dropUpdates (s : State) (d : Nat) : State :=
  let bad (o : Operand) : Option (RemoteUpdate × Nat) :=
    match o with
    | .update u =>
      match s.updatePlace u with
      | .tier k _ off =>
        if u.src.core.dev = some d then
          match s.tierRoute u.src k off with
          | .stop cause => some (u, cause)
          | .go _ _ => none
        else none
      | _ => none
    | _ => none
  let gone := (s.agenda.filterMap fun e => bad e.2.2).foldl (fun l x => insertUpdate x l) []
  let s1 : State := { s with agenda := s.agenda.filter fun e => (bad e.2.2).isNone }
  gone.foldl (fun st x =>
    let st := match s.updatePlace x.1 with
      | .tier k _ off => st.leaveNormaliser (bankCore k off) x.1
      | _ => st
    st.endUpdate x.1 (some x.2)) s1

/-- Loads of a device's pipes from the tier whose replies can come no more fail with tier-loss or tier-stale (R143, R277). -/
def State.failTierLoads (s : State) (d : Nat) : State :=
  s.pipes.foldl (fun st e =>
    let p := PipeRef.ofCode e.1
    e.2.ops.foldl (fun st o =>
      let lost : Option Nat := if p.dev = d ∧ o.2.ofTier then
          (o.2.units.find? fun u => !u.landed).bind fun u => s.tierLost d u.addr
        else none
      match lost, st.jobs.get? o.2.job with
      | some c, some v => st.failLoad p o.1 o.2 v c
      | _, _ => st) st) s

/-- A device acts on the loss of switch k to it; `all` for a switch loss, else the loss of its port alone. -/
def State.actOnLoss (s : State) (d k : Nat) (pairLost all : Bool) : State :=
  let s1 := (s.loseTransits d k all).loseInboxes d k all
  let s2 := (s1.guestsOn d k).foldl (fun st t => st.loseGuest t pairLost all) s1
  (s2.dropUpdates d).failTierLoads d

/-! ## Loss, readmission, quotas, formation -/

/-- A switch fails: its contents are lost; a pair left with no live member is lost (R285, R286, R288). -/
def State.failSwitch (s : State) (k : Nat) : State :=
  let j := k / 2
  let before := s.primary j
  let s1 := s.modSwitch k fun v => { v with up := false, filling := false, losses := [] }
  let s2 : State := { s1 with tier := s1.tier.clear (tierAddr k 0) (2 ^ 38) }
  if before ≠ none ∧ s2.primary j = none then
    let s3 : State := { s2.modSwitch k fun v => { v with tookPair := true } with pairs := s2.pairs.put j (s2.pairInc j + 1) }
    let o := k / 2 * 4 + 1 - k
    if (s3.switch o).filling then s3.modSwitch o fun v => { v with filling := false } else s3
  else s2

/-- Members of aligned groups whose package has lost every port are lost (R294). -/
def State.isolate (s : State) (d : Nat) : State :=
  if (List.range 24).all fun k => s.noticed d k then s.leaveGroups d else s

/-- A device holds the loss notice of switch k from now on, and acts on it (R277, R286). -/
def State.notice (s : State) (k d : Nat) : State :=
  if (s.dev d).lost.contains k then s
  else
    let s1 := s.modDev d fun v => { v with lost := k :: v.lost }
    let pairLost := (s1.switch k).tookPair || (s1.primary (k / 2)).isNone
    (s1.actOnLoss d k pairLost true).isolate d

/-- SWITCH_LOSS_NOTICE (R277, R286, R287): switch k is lost; the devices that the notice reaches hold it from now on, and it
reaches the others within 52,500 cycles. -/
def execSwitchLossNotice (s : State) : Out :=
  match s.ev with
  | .switchDevs k ds =>
    if 24 ≤ k then .next s
    else
      let s1 := if (s.switch k).up then
          ((List.range Config.devices).filter fun d => !ds.contains d).foldl
            (fun st d => st.within 52500 .switchLossNotice (.switchDevs k [d])) (s.failSwitch k)
        else s
      .next (ds.foldl (fun st d => st.notice k d) s1)
  | _ => .next s

/-- Port losses for one switch on more than this many devices within this many cycles are a switch loss (R286). -/
def portLossLimit : Nat × Nat := (96, 1050000)

/-- PORT_LOSS_NOTICE (R286, R294): switch k is lost to this device alone; a switch loss is declared when too many ports are. -/
def execPortLossNotice (s : State) : Out :=
  match s.ev with
  | .port d k =>
    if 24 ≤ k then .next s
    else
      let s1 := s.modPort d k fun v => { v with up := false }
      let s2 := s1.modDev d fun v => { v with portLost := if v.portLost.contains k then v.portLost else k :: v.portLost }
      let s3 := ((s2.actOnLoss d k false false).isolate d).modSwitch k fun v =>
        { v with losses := (s.wcc, d) :: v.losses.filter fun e => e.2 != d && decide (s.wcc < e.1 + portLossLimit.2) }
      .next (if portLossLimit.1 < (s3.switch k).losses.length ∧ (s3.switch k).up then
          s3.dueAt s.wcc .switchLossNotice (.switchDevs k [])
        else s3)
  | _ => .next s

/-- PORT_LOSS_CLEAR (R286): the device uses switch k again, its pointers valid. -/
def execPortLossClear (s : State) : Out :=
  match s.ev with
  | .port d k =>
    let s1 := s.modPort d k fun v => { v with up := true, retraining := false, replays := 0 }
    .next (s1.modDev d fun v => { v with portLost := without v.portLost k })
  | _ => .next s

/-- The notices of switch k that are still on their way reach their devices (R287). -/
def State.deliverNotices (s : State) (k : Nat) : State :=
  let mine (i : Instr) (o : Operand) : Option (List Nat) := match i, o with
    | .switchLossNotice, .switchDevs n ds => if n = k then some ds else none
    | _, _ => none
  let ds := (s.agenda.filterMap fun e => mine e.2.1 e.2.2).flatten
  ds.foldl (fun st d => st.notice k d) (s.cancel fun i o => (mine i o).isSome)

/-- SWITCH_READMISSION (R285, R287, R288): once every device holds the notice of its loss, a replaced switch comes back empty,
its incarnation increased, and is filled from its pair's survivor. One at incarnation 63 is not readmitted. -/
def execSwitchReadmission (s : State) : Out :=
  match s.ev with
  | .switch k =>
    let v := s.switch k
    if 24 ≤ k ∨ v.up ∨ 63 ≤ v.inc then .next s
    else
      let s := s.deliverNotices k
      let fill := (s.primary (k / 2)).isSome
      let s1 := s.modSwitch k fun v => { v with up := true, inc := v.inc + 1, tookPair := false, filling := fill }
      let s2 : State := { s1 with devs := s1.devs.map fun e => (e.1, { e.2 with lost := without e.2.lost k }) }
      .next (if fill then s2.later .mirrorFillDone (.switch k) else s2)
  | _ => .next s

/-- The bytes of live mirrored allocations of a pair that survivor p holds are copied to member k. -/
def State.fillMember (s : State) (k p : Nat) : State :=
  (s.allocs.filter fun a => a.mir && a.switch / 2 == k / 2 && s.allocLive a).foldl (fun st a =>
    let bs := st.tier.getBytes (tierAddr p a.off) a.size
    { st with tier := (st.tier.clear (tierAddr k a.off) a.size).setBytes (tierAddr k a.off) bs }) s

/-- MIRROR_FILL_DONE (R288): the newcomer holds what its partner holds; 2j is primary again when it is the newcomer. -/
def execMirrorFillDone (s : State) : Out :=
  match s.ev with
  | .switch k =>
    match (s.switch k).filling, s.primary (k / 2) with
    | true, some p => .next ((s.fillMember k p).modSwitch k fun v => { v with filling := false })
    | _, _ => .next s
  | _ => .next s

/-- QUOTA_CHANGE (R282). -/
def execQuotaChange (s : State) : Out :=
  match s.ev with
  | .quota k space n =>
    if 24 ≤ k ∨ granules < n then .next s
    else .next (s.modSwitch k fun v => { v with quota := v.quota.put space n })
  | _ => .next s

/-- DOMAIN_FORMATION (R285, R290): incarnations are 1, the tier holds no allocation, and the epoch of the frames is now. With
the operand of a path table's entry, the firmware writes that entry (R296). -/
def execDomainFormation (s : State) : Out :=
  match s.ev with
  | .paths d e alts => .next (s.modDev d fun v => { v with paths := v.paths.put e (alts.take 4) })
  | _ =>
    .next { s with
      switches := [], pairs := [], allocs := [], tier := [], epoch := s.wcc
      ports := s.ports.map fun e => (e.1, { e.2 with nextIn := [] })
      devs := s.devs.map fun e => (e.1, { e.2 with lost := [] }) }

/-! ## The link (R297) -/

/-- FLIT_REPLAY (R297): a flit that replays 4 times without success makes the link retrain; it has 100 µs. -/
def execFlitReplay (s : State) : Out :=
  match s.ev with
  | .port d k =>
    let v := s.port d k
    if !v.up ∨ v.retraining then .next s
    else if v.replays + 1 < 4 then .next (s.modPort d k fun v => { v with replays := v.replays + 1 })
    else
      .next ((s.modPort d k fun v => { v with replays := 0, retraining := true }).dueAt (s.wcc + 105000) .linkDown (.port d k))
  | _ => .next s

/-- LINK_RETRAIN_DONE (R297): the link carries flits again. -/
def execLinkRetrainDone (s : State) : Out :=
  match s.ev with
  | .port d k =>
    if !(s.port d k).retraining then .next s
    else
      let mine (i : Instr) (o : Operand) : Bool := match i, o with
        | .linkDown, .port e l => e == d && l == k
        | _, _ => false
      .next ((s.modPort d k fun v => { v with retraining := false, replays := 0 }).cancel mine)
  | _ => .next s

/-- LINK_DOWN (R297): the link has not retrained within 100 µs; port loss follows. -/
def execLinkDown (s : State) : Out :=
  match s.ev with
  | .port d k =>
    if !(s.port d k).retraining then .next s
    else .next ((s.modPort d k fun v => { v with retraining := false, up := false }).later .portLossNotice (.port d k))
  | _ => .next s

/-- PACKET_STOMP (R297): the stomped packet is discarded whole, and the originating hop replays it, with the packets of the
link that come after it behind it. -/
def execPacketStomp (s : State) : Out :=
  match s.ev with
  | .packet d k p =>
    .next ((s.modPort d k fun v => { v with retry := v.retry ++ [p] }).later .fabricPacketReceive (.packet d k p))
  | _ => .next s

/-- Whether a packet must wait at its link: the link retrains, or packets that are replayed stand before it (R297). -/
def Port.before (v : Port) (p : FabricPacket) : Bool := v.retraining || (!v.retry.isEmpty && v.retry.head? != some p)

/-! ## Packets (R295, R298 to R300) -/

/-- HCHK: the CRC-32C of word 0 and of word 1 [63:32]. -/
def headerOk (p : FabricPacket) : Bool :=
  (crc32c (leBytes 8 p.w0.toNat ++ leBytes 4 (wbits p.w1 32 32))).toNat == wbits p.w1 0 32

/-- Whether the content is of the packet's KIND. -/
def kindMatches (p : FabricPacket) : Bool :=
  match p.content with
  | .read _ => p.kindOf == 1
  | .write _ => p.kindOf == 2
  | .reply _ => p.kindOf == 3
  | .message _ => p.kindOf == 4
  | .caravan _ _ => p.kindOf == 5
  | .update _ => p.kindOf == 6
  | .ack _ => p.kindOf == 7

/-- The content of an accepted packet reaches its place: a read, a write or a reply lets its context go on. -/
def State.deliver (s : State) (c : FabricContent) : State :=
  let now (i : Instr) (o : Operand) : State := s.dueAt s.wcc i o
  match c with
  | .read t => now .threadLoadReply (.ctx t 0)
  | .write t => now .windowStoreAck (.ctx t 0)
  | .reply t => now .threadLoadReply (.ctx t 0)
  | .message m => now .messageArrival (.message m)
  | .caravan dest v => now .caravanAdmission (.arrive dest v)
  | .update u => now .remoteUpdateApply (.update u)
  | .ack _ => s

/-- Whether a port admits a packet's KEY and SPACE: the slot is loaded, and the space is one of the fabric job's (R295, R299,
R300). -/
def Port.admits (v : Port) (p : FabricPacket) : Bool :=
  match v.keys.get? (wbits p.w0 19 4) with
  | none => false
  | some k => k.spaces.contains (wbits p.w0 0 16)

/-- A packet that was lost on the link or whose tag failed is sent again, where its source keeps it (R298, R299). -/
def State.resend (s : State) (d k : Nat) (p : FabricPacket) : State :=
  if p.kept then s.later .fabricPacketReceive (.packet d k { p with tagOk := true, resent := true }) else s

/-- Whether a packet that its source keeps waits behind one of a lower SEQ from the same device that is sent again (R298). -/
def State.behindResent (s : State) (d : Nat) (p : FabricPacket) : Bool :=
  p.kept && s.inFlight fun i o => match i, o with
    | .fabricPacketReceive, .packet e _ q => e == d && q.resent && q.srcOf == p.srcOf && decide (q.seqOf < p.seqOf)
    | _, _ => false

/-- The port by which a packet comes now: one that is sent again comes by the alternative that is valid, if one is (R298). -/
def State.portOf (s : State) (d k : Nat) (p : FabricPacket) : Option Nat :=
  if p.resent then s.path p.sender p.srcOf d else some k

/-- A packet that its port's link brings (R295, R299): one with a bad header or a key that is not admitted, or whose tag fails, is
discarded and counted; a sequence number is applied once. -/
def State.takePacket (s : State) (d k : Nat) (p : FabricPacket) : State :=
  let v := s.port d k
  let counted := s.modPort d k fun v => { v with errors := v.errors + 1 }
  if !headerOk p || p.kindOf == 0 || decide (8 ≤ p.kindOf) || !v.admits p || !kindMatches p then counted
  else if wbits p.w0 18 1 = 1 ∧ !p.tagOk then counted.resend d k p
  else
    let s1 := s.modPort d k fun v =>
      { v with
        replays := 0
        keys := v.keys.map fun e => if e.1 = wbits p.w0 19 4 then (e.1, { e.2 with inbound := e.2.inbound + 1 }) else e }
    let seen := ((s.dev d).seen.get? p.srcOf).getD []
    if !p.kept then s1.deliver p.content
    else if seen.contains p.seqOf then s1
    else (s1.modDev d fun v => { v with seen := v.seen.put p.srcOf (p.seqOf :: seen) }).deliver p.content

/-- FABRIC_PACKET_RECEIVE (R295, R297 to R299): packets come in the link's order; one whose port is down is lost on the link. -/
def execFabricPacketReceive (s : State) : Out :=
  match s.ev with
  | .packet d k0 p =>
    let wait (k : Nat) : State := s.dueAt (s.wcc + 1) .fabricPacketReceive (.packet d k p)
    match s.portOf d k0 p with
    | none => .next (wait k0)
    | some k =>
      let v := s.port d k
      let taken := s.modPort d k fun v => { v with retry := v.retry.erase p }
      if !v.up then .next (taken.resend d k p)
      else if v.before p ∨ s.behindResent d p then
        .next (if v.retraining ∨ v.retry.contains p ∨ !v.before p then wait k
          else (wait k).modPort d k fun v => { v with retry := v.retry ++ [p] })
      else .next (taken.takePacket d k p)
  | _ => .next s

/-! ## Control flits (R291, R293, R294, R299) -/

/-- The port and the space by which a load of a pipe reads the tier, when it does. -/
def State.loadPort (s : State) (p : PipeRef) (op : Op) : Option (Nat × BitVec 16) :=
  match op.units.find? fun u => !u.landed && (wbits u.addr 48 8 / 16 == 14), s.jobs.get? op.job with
  | some u, some v => some (s.tierPort p.dev v.space u.addr, v.space)
  | _, _ => none

/-- The loads from the tier through port k of a device that its pipes have in flight, of spaces that satisfy a test. -/
def State.tierLoads (s : State) (d k : Nat) (f : BitVec 16 → Bool) : List (PipeRef × Nat) :=
  s.pipes.flatMap fun e =>
    let p := PipeRef.ofCode e.1
    if p.dev = d then
      (e.2.ops.filter fun o => match s.loadPort p o.2 with
        | some (n, space) => n == k && f space
        | none => false).map fun o => (p, o.1)
    else []

/-- A read loses the data of those of its units that satisfy a test: what has not landed of them does not land. -/
def State.loseData (s : State) (x : PipeRef × Nat) (f : LoadUnit → Bool) : State :=
  let units := (((s.pipe x.1).ops.get? x.2).map fun o => o.units).getD []
  s.cancel fun i o => match i, o with
    | .loadLanding, .op p id u => p == x.1 && id == x.2 && units[u]?.any f
    | _, _ => false

/-- The space ids under a key slot of a port: those that it admits, or when it holds nothing, those of the slots that were zeroed
(R299, R300). -/
def Port.spacesUnder (v : Port) (slot : Nat) : List Nat := ((v.keys.get? slot).map fun e => e.spaces).getD v.zeroed

/-- The reads through a port lose the timed flits of the last frame that came under a key slot: the units that would land in the
wall cycle in which the current frame began (R299). [log 109] -/
def State.loseFrame (s : State) (d k slot : Nat) : State :=
  let spaces := (s.port d k).spacesUnder slot
  let due := s.slotCycle ((s.slotFrom (s.wcc + 1) - 1) / 64 * 64)
  (s.tierLoads d k fun x => spaces.contains x.toNat).foldl (fun st x => st.loseData x fun u => u.due == some due) s

/-- The timed partitions that a mask of reserved slots names: one, or the members of an aligned group (R291). -/
def State.maskParts (s : State) (d key : Nat) : List PartRef :=
  if key < 8 then [⟨d, key⟩] else (s.groups.get? (key - 8)).getD []

/-- The fabric manager writes a mask of reserved slots of a port (R291): none is reserved twice in a direction, and no job runs
on the partitions that the mask names. -/
def State.writeMask (s : State) (d k : Nat) (out : Bool) (key mask : Nat) : State :=
  let v := s.port d k
  let m := mask % 2 ^ 63
  let others := (if out then v.maskOut else v.maskIn).filter fun e => e.1 != key
  let taken := others.any fun e => (List.range 63).any fun i => bit e.2 i && bit m i
  let runs := s.jobs.any fun e => e.2.state == .running && (s.maskParts d key).contains e.2.part
  if taken || runs then s
  else if out then s.modPort d k fun v => { v with maskOut := v.maskOut.put key m }
  else s.modPort d k fun v => { v with maskIn := v.maskIn.put key m, nextIn := v.nextIn.drop key }

/-- CONTROL_FLIT (R291): a hold or release notice, an alignment command, the tag of the last frame, credits; or a mask of
reserved slots that the fabric manager writes. -/
def execControlFlit (s : State) : Out :=
  match s.ev with
  | .control d k c =>
    match c with
    | .hold m at_ =>
      .next (((List.range 8).filter fun i => (s.part ⟨d, i⟩).group.isSome && (s.part ⟨d, i⟩).group == (s.part m).group
          && (⟨d, i⟩ : PartRef) != m).foldl
        (fun st i => if (st.part m).holds.any fun h => h.d == at_ then st else st.declare ⟨d, i⟩ 0 at_ (.remote m)) s)
    | .release m at_ r =>
      .next { s with parts := s.parts.map fun e =>
        (e.1, { e.2 with holds := e.2.holds.map fun h =>
          if h.cause = .remote m ∧ h.d = at_ ∧ h.release = none then { h with release := some r } else h }) }
    | .align ms w0 p0 => .next (s.dueAt (Nat.max s.wcc w0) .alignPartitions (.align ms p0))
    | .tag slot good =>
      let ok := good && ((s.port d k).keys.get? slot).isSome
      let s1 := s.modPort d k fun v => { v with
        errors := if ok then v.errors else v.errors + 1
        keys := v.keys.map fun e => if e.1 = slot then (e.1, { e.2 with inbound := e.2.inbound + 1 }) else e }
      .next (if ok then s1 else s1.loseFrame d k slot)
    | .credits n => .next (s.modPort d k fun v => { v with credits := v.credits + n })
  | .slotMask d k out key mask => .next (s.writeMask d k out key mask)
  | _ => .next s

/-! ## Keys (R299, R300) -/

/-- KEY_SLOT_LOAD (R299): the wrapped key is unwrapped into the slot of every port that the fabric job uses, its counters
0. -/
def execKeySlotLoad (s : State) : Out :=
  match s.ev with
  | .keyLoad d slot wrapped ports spaces =>
    match Config.aesUnwrap d wrapped with
    | none => .next s
    | some key =>
      if 16 ≤ slot then .next s
      else
        .next (ports.foldl (fun st k => st.modPort d k fun v =>
          { v with
            keys := v.keys.put slot { key := key, outbound := 0, inbound := 0, spaces := spaces }
            stopped := without v.stopped slot
            zeroed := v.zeroed.filter fun x => !spaces.contains x }) s)
  | _ => .next s

/-- The space ids that a key slot admits on any port of a device. -/
def State.slotSpaces (s : State) (d slot : Nat) : List Nat :=
  (List.range 24).flatMap fun k => (((s.port d k).keys.get? slot).map fun v => v.spaces).getD []

/-- Whether an event in flight is a packet of a device under a key slot, by the slot's space ids. -/
def State.packetUnder (s : State) (d : Nat) (spaces : List Nat) (i : Instr) (o : Operand) : Bool :=
  let mine (e : Option Nat) (space : BitVec 16) : Bool := e == some d && spaces.contains space.toNat
  match i, o with
  | .messageArrival, .message m => m.remote && (mine m.src.core.dev m.space || mine m.dest.dev m.space)
  | .caravanAdmission, .arrive _ c => !c.via.isEmpty && mine c.homeDev c.lead.space
  | .caravanReturnHome, .caravan c => !c.via.isEmpty && mine c.homeDev c.lead.space
  | .remoteUpdateApply, .update u => mine u.core.dev u.space && (s.updateRuns (((s.updateTarget u).toOption).getD (.pool u.core 0))).dev != some d
  | _, .ctx t _ => (s.ctx t).asked.isSome && mine t.core.dev (s.ctx t).space
  | _, _ => false

/-- The queues of a device of some spaces freeze before their fabric job's keys go; the spec names no cause, which is a free
value that no other rule uses (R300). [log 100] -/
def State.freezeSpaces (s : State) (d : Nat) (spaces : List Nat) : State :=
  (List.range 64).foldl (fun st q =>
    if (st.queue d q).en && spaces.contains (st.queue d q).space.toNat then
      let (n, st) := st.pick 244
      st.freezeQueue d q (12 + n) .none
    else st) s

/-- KEY_SLOT_ZERO (R300): on every port; the job's queues freeze first, and its packets and timed flits in flight are lost. -/
def execKeySlotZero (s : State) : Out :=
  match s.ev with
  | .keySlot d slot =>
    let spaces := s.slotSpaces d slot
    let s1 := (s.freezeSpaces d spaces).cancel (s.packetUnder d spaces)
    let s2 := (List.range 24).foldl (fun st k =>
      (st.tierLoads d k fun x => spaces.contains x.toNat).foldl (fun st x => st.loseData x fun _ => true) st) s1
    .next ((List.range 24).foldl (fun st k =>
      st.modPort d k fun v =>
        { v with
          keys := v.keys.drop slot, stopped := without v.stopped slot
          zeroed := ((v.keys.get? slot).map fun e => e.spaces).getD [] ++ v.zeroed }) s2)
  | _ => .next s

/-- Whether an event in flight waits at its source: its packet is kept there, or not sent (R298, R299). -/
def State.keptBack (s : State) (i : Instr) (o : Operand) : Bool :=
  match i, o with
  | .messageArrival, .message m => s.wayStops m.src.core m.dest m.space
  | .remoteUpdateApply, .update u =>
    match s.updateTarget u with
    | .ok x => s.wayStops u.core (s.updateRuns x) u.space
    | .error _ => false
  | .loadLanding, .op p id _ =>
    match (s.pipe p).ops.get? id with
    | none => false
    | some op =>
      match s.loadPort p op with
      | some (k, space) => (s.port p.dev k).stops space
      | none => false
  | _, .ctx t _ =>
    match (s.ctx t).asked with
    | some (d, _) => s.wayStops t.core (.thread d 0 0) (s.ctx t).space
    | none => false
  | _, _ => false

/-- NONCE_COUNTER_WRAP (R299): the port stops sending under the slot and reports to the fabric manager. -/
def execNonceCounterWrap (s : State) : Out :=
  match s.ev with
  | .nonce d k slot =>
    .next ((s.modPort d k fun v => { v with stopped := if v.stopped.contains slot then v.stopped else slot :: v.stopped }).tell
      (.fabricReport d k))
  | _ => .next s

end Sys2Proof.Machine
end

