-- ==== Sys2Proof/Machine/Lane.lean ====
section
/-! DEFINITION. Lane stream ops (R56 to R62): LNADD to LNCPY, LNSUM, LNDOT. -/

namespace Sys2Proof.Machine

/-- The element-wise functions (R58). -/
inductive LaneFn where
  | add | sub | mul | min | max | and | or | xor | fma | cpy
  deriving DecidableEq, Repr

/-- size(t) in bytes (R27). -/
def laneSize (t : Nat) : Nat :=
  match t with
  | 0 | 4 => 1
  | 1 | 5 | 10 => 2
  | 2 | 6 | 8 => 4
  | _ => 8

/-- The float format of a lane type. -/
def laneFloat (t : Nat) : Option FloatFmt :=
  match t with
  | 8 => some f32
  | 9 => some f64
  | 10 => some bf16
  | _ => none

/-- An integer lane of n bits; `sgn` for the .iN types (R60). -/
def laneInt (f : LaneFn) (n : Nat) (sgn : Bool) (z x y : Nat) : Nat :=
  let lt (a b : Nat) : Bool := if sgn then decide (signed n a < signed n b) else decide (a < b)
  match f with
  | .add => (x + y) % 2 ^ n
  | .sub => (x + 2 ^ n - y) % 2 ^ n
  | .mul => x * y % 2 ^ n
  | .min => if lt y x then y else x
  | .max => if lt x y then y else x
  | .and => x &&& y
  | .or => x ||| y
  | .xor => x ^^^ y
  | .fma => (z + x * y) % 2 ^ n
  | .cpy => x

/-- A floating-point lane, and whether it meets a subnormal (R54, R60). -/
def laneFp (f : LaneFn) (h : FloatFmt) (z x y : Nat) : Nat × Bool :=
  let sub2 := h.isSub x || h.isSub y
  match f with
  | .add => (h.add .rne x y, sub2 || h.addTiny .rne x y)
  | .sub => (h.sub .rne x y, sub2 || h.tiny ((h.value x).add .rne (h.value y).neg))
  | .mul => (h.mul .rne x y, sub2 || h.tiny ((h.value x).mul (h.value y)))
  | .min => (h.min x y, false)
  | .max => (h.max x y, false)
  | .fma =>
    (h.fma .rne z x y, sub2 || h.isSub z || h.tiny ((h.value z).add .rne ((h.value x).mul (h.value y))))
  | .cpy => (x, false)
  | .and => (x &&& y, false)
  | .or => (x ||| y, false)
  | .xor => (x ^^^ y, false)

/-- One lane of an element-wise op. -/
def lane (f : LaneFn) (t z x y : Nat) : Nat × Bool :=
  match laneFloat t with
  | some h => laneFp f h z x y
  | none => (laneInt f (8 * laneSize t) (decide (t ≤ 3)) z x y, false)

/-- A rounded sum in a format, with the subnormal test carried along. R54 speaks of operands and of the exact result; that
every product and partial sum of LNSUM and LNDOT counts as one is the model's choice. [log 82] -/
def sumFp (h : FloatFmt) (a b : Nat × Bool) : Nat × Bool :=
  let r := laneFp .add h 0 a.1 b.1
  (r.1, a.2 || b.2 || r.2)

/-- The fixed bracketing of R59 over eight terms. -/
def bracket {α : Type} (f : α → α → α) (z : α) (v : List α) : α :=
  let g (i : Nat) : α := v[i]?.getD z
  f (f (f (g 0) (g 1)) (f (g 2) (g 3))) (f (f (g 4) (g 5)) (f (g 6) (g 7)))

/-- LNSUM and LNDOT over their elements (R59, R60). For bf16 the products and sums are of binary32, and the sum rounds to
bf16. -/
def laneReduce (dot : Bool) (t : Nat) (xs ys : List Nat) : Nat × Bool :=
  match laneFloat t with
  | none =>
    let n := 8 * laneSize t
    let v := List.zipWith (fun x y => if dot then x * y % 2 ^ n else x) xs ys
    (bracket (fun a b => (a + b) % 2 ^ n) 0 v, false)
  | some h =>
    let wide := if h = bf16 then f32 else h
    let met := (xs.any h.isSub) || (dot && ys.any h.isSub)
    let up (x : Nat) : Nat := if h = bf16 then x * 65536 else x
    let v := List.zipWith (fun x y => if dot then laneFp .mul wide 0 (up x) (up y) else (up x, false)) xs ys
    let (r, sub) := bracket (sumFp wide) (0, false) v
    if h = bf16 then (convertFloat f32 bf16 .rne r, met || sub || bf16.tiny (f32.value r)) else (r, met || sub)

/-! ## Operands (R56, R57) -/

/-- The core and offset that a pool alias names; none for an address in neither alias (R8, R57). -/
def State.poolRef (s : State) (t : CtxRef) (va : Word) : Option (CoreRef × Nat) :=
  let low := wbits va 0 48
  if wbits va 48 16 = 0xFE then (if low < 2 ^ 18 then some (s.aliasCore t, low) else none)
  else if wbits va 48 16 = 0xFF then
    let i := low / 2 ^ 20
    let off := low % 2 ^ 20
    if 128 ≤ i ∨ 2 ^ 18 ≤ off then none
    else
      match s.aliasCore t with
      | .thread d x y => some (clusterCore d x y i, off)
      | _ => none
  else none

/-- A vector operand: its register, the length of its run, and its address. -/
structure LaneOperand where
  reg : Reg
  len : Nat
  va : Word
  deriving DecidableEq, Repr

/-- The part of a pool that a run may lie in (R56). -/
def State.laneRange (s : State) (c : CoreRef) (off len : Nat) : Bool :=
  let v := s.core c
  decide (off + len ≤ v.bndS.toNat * 512) && (c == s.aliasCore s.tf || decide (v.bndW.toNat * 512 ≤ off))

/-- Checks 2 to 5 of R57 over the operands in the order rd, ra, rb: the trap, or the core and the offsets. -/
def State.laneCheck (s : State) (e : Nat) (ops : List LaneOperand) : Except (Nat × Word) (CoreRef × List Nat) :=
  match ops.find? fun o => (s.poolRef s.tf o.va).isNone with
  | some o => .error (causeAddress, o.va)
  | none =>
    match ops.find? fun o => !aligned o.va e with
    | some o => .error (2, o.va)
    | none =>
      let at_ (o : LaneOperand) : CoreRef × Nat := (s.poolRef s.tf o.va).getD (s.tf.core, 0)
      match ops with
      | [] => .error (1, 0)
      | o :: _ =>
        let home := (at_ o).1
        match ops.find? fun o => !((at_ o).1 == home) with
        | some o => .error (6, o.va)
        | none =>
          match ops.find? fun o => !s.laneRange home (at_ o).2 o.len with
          | some o => .error (5, o.va)
          | none => .ok (home, ops.map fun o => (at_ o).2)

/-- The banks that a run touches (R61). -/
def runBanks (off len : Nat) : List Nat :=
  let a := off / 64 % 3
  let b := (off + len - 1) / 64 % 3
  if off / 64 = (off + len - 1) / 64 then [a] else [a, b]

/-- Removes repeated runs. -/
def distinct : List (Nat × Nat) → List (Nat × Nat)
  | [] => []
  | x :: xs => if xs.contains x then distinct xs else x :: distinct xs

/-- The stall cycles of a lane op: one access per distinct source run and one for the destination (R61). A source run that is
also the run LNFMA accumulates in counts as a run of its own. [log 119] -/
def laneStalls (dst : Nat × Nat) (srcs : List (Nat × Nat)) : Nat :=
  let banks := ((dst :: distinct srcs).map fun r => runBanks r.1 r.2).flatten
  ([0, 1, 2].map fun b => (banks.filter fun x => x == b).length - 1).foldl (· + ·) 0

/-- The larger of the advances that a register takes (R56). -/
def advanceOf (ops : List LaneOperand) (r : Reg) : Nat :=
  (ops.filter fun o => o.reg == r).foldl (fun m o => Nat.max m o.len) 0

/-- Advances every pointer register once. -/
def State.advance (s : State) (ops : List LaneOperand) : State :=
  ops.foldl (fun st o => st.setReg o.reg (o.va + BitVec.ofNat 64 (advanceOf ops o.reg))) s

/-- Reads eight elements of e bytes at an offset of the acting core's pool. -/
def State.elements (s : State) (off e : Nat) : List Nat :=
  (List.range 8).map fun i => s.pool.num (s.tf.core.poolBase + off + i * e) e

/-- Writes elements of e bytes. -/
def State.setElements (s : State) (off e : Nat) (vs : List Nat) : State :=
  { s with pool := s.pool.setBytes (s.tf.core.poolBase + off) (vs.map (leBytes e)).flatten }

/-- The end of a lane op: pointers, bank stalls (R61), the normaliser (R54), which takes the op at its issue: the stalls run
within the turns that it forfeits. [log 120] -/
def State.endLane (s : State) (ops : List LaneOperand) (stalls : Nat) (sub : Bool) : Out :=
  let s1 := (s.advance ops).retire 4
  let s2 := if stalls = 0 then s1 else
    (s1.modCore s.tf.core fun c => { c with stall := s.wcc + 1 + stalls }).modCtx s.tf fun c =>
      { c with last := some (s.wcc + stalls) }
  .next (if sub then s2.useNormaliser else s2)

/-- A lane op whose operands lie in one pool: it runs on that pool's core (R57). -/
def laneOp (g : Guard) (legal : Bool) (e : Nat) (ops : State → List LaneOperand) (s : State)
    (run : State → List Nat → State × Bool) : Out :=
  if !legal then illegal s
  else
    guarded g 4 s fun s =>
      let os := ops s
      match s.laneCheck e os with
      | .error (c, a) => trapOut s c a
      | .ok (home, offs) =>
        if home = s.tf.core then
          let s1 := s.flushPool s.tf
          let (s2, sub) := run s1 offs
          let stalls := match os, offs with
            | o :: _, f :: _ => laneStalls (f, o.len) ((List.zip offs (os.map fun o => o.len)).drop 1)
            | _, _ => 0
          s2.endLane os stalls sub
        else travel s home s.me.pc ((os.map fun o => o.va).headD 0) false

/-- The operands of an op with ra and rb. -/
def laneOps3 (dlen len : Nat) (d a b : Reg) (s : State) : List LaneOperand :=
  [⟨d, dlen, s.reg d⟩, ⟨a, len, s.reg a⟩, ⟨b, len, s.reg b⟩]

/-- The operands of LNCPY and LNSUM. -/
def laneOps2 (dlen len : Nat) (d a : Reg) (s : State) : List LaneOperand :=
  [⟨d, dlen, s.reg d⟩, ⟨a, len, s.reg a⟩]

/-- The element-wise ops at their offsets (R58): all reads precede all writes. -/
def runLanes (f : LaneFn) (t : Nat) (s : State) (offs : List Nat) : State × Bool :=
  let e := laneSize t
  let z := offs.headD 0
  let x := offs[1]?.getD 0
  let y := offs[2]?.getD x
  let rs := List.zipWith (fun (p : Nat × Nat) b => lane f t p.1 p.2 b) (List.zip (s.elements z e) (s.elements x e))
    (s.elements y e)
  (s.setElements z e (rs.map fun r => r.1), rs.any fun r => r.2)

/-- The reducing ops at their offsets (R59). -/
def runReduce (dot : Bool) (t : Nat) (s : State) (offs : List Nat) : State × Bool :=
  let e := laneSize t
  let x := offs[1]?.getD 0
  let y := offs[2]?.getD x
  let r := laneReduce dot t (s.elements x e) (s.elements y e)
  (s.setElements (offs.headD 0) e [r.1], r.2)

/-- An element-wise op with three operands. -/
def laneElem (f : LaneFn) (top : Nat) (g : Guard) (d a b : Reg) (t : BitVec 4) (s : State) : Out :=
  let e := laneSize t.toNat
  laneOp g (decide (t.toNat ≤ top)) e (laneOps3 (8 * e) (8 * e) d a b) s (runLanes f t.toNat)

/-- LNADD (R58). -/
def execLnadd (g : Guard) (d a b : Reg) (t : BitVec 4) (s : State) : Out := laneElem .add 10 g d a b t s
/-- LNSUB (R58). -/
def execLnsub (g : Guard) (d a b : Reg) (t : BitVec 4) (s : State) : Out := laneElem .sub 10 g d a b t s
/-- LNMUL (R58). -/
def execLnmul (g : Guard) (d a b : Reg) (t : BitVec 4) (s : State) : Out := laneElem .mul 10 g d a b t s
/-- LNMIN (R58). -/
def execLnmin (g : Guard) (d a b : Reg) (t : BitVec 4) (s : State) : Out := laneElem .min 10 g d a b t s
/-- LNMAX (R58). -/
def execLnmax (g : Guard) (d a b : Reg) (t : BitVec 4) (s : State) : Out := laneElem .max 10 g d a b t s
/-- LNAND (R58). -/
def execLnand (g : Guard) (d a b : Reg) (t : BitVec 4) (s : State) : Out := laneElem .and 7 g d a b t s
/-- LNOR (R58). -/
def execLnor (g : Guard) (d a b : Reg) (t : BitVec 4) (s : State) : Out := laneElem .or 7 g d a b t s
/-- LNXOR (R58). -/
def execLnxor (g : Guard) (d a b : Reg) (t : BitVec 4) (s : State) : Out := laneElem .xor 7 g d a b t s
/-- LNFMA (R58): z + x × y. -/
def execLnfma (g : Guard) (d a b : Reg) (t : BitVec 4) (s : State) : Out := laneElem .fma 10 g d a b t s
/-- LNCPY (R58). -/
def execLncpy (g : Guard) (d a : Reg) (t : BitVec 4) (s : State) : Out :=
  let e := laneSize t.toNat
  laneOp g (decide (t.toNat ≤ 10)) e (laneOps2 (8 * e) (8 * e) d a) s (runLanes .cpy t.toNat)
/-- LNSUM (R59). -/
def execLnsum (g : Guard) (d a : Reg) (t : BitVec 4) (s : State) : Out :=
  let e := laneSize t.toNat
  laneOp g (decide (t.toNat ≤ 10)) e (laneOps2 e (8 * e) d a) s (runReduce false t.toNat)
/-- LNDOT (R59). -/
def execLndot (g : Guard) (d a b : Reg) (t : BitVec 4) (s : State) : Out :=
  let e := laneSize t.toNat
  laneOp g (decide (t.toNat ≤ 10)) e (laneOps3 e (8 * e) d a b) s (runReduce true t.toNat)

end Sys2Proof.Machine
end

