-- ==== Sys2Proof/Machine/Ue.lean ====
section
/-! DEFINITION. The Ultra Ethernet service (R301 to R303): work requests, inbound packets, completions. -/

namespace Sys2Proof.Machine

/-- A queue of the service. -/
def State.ue (s : State) (d q : Nat) : UeQueue := (s.ues.get? (d * 64 + q)).getD UeQueue.reset

/-- Changes a queue of the service. -/
def State.modUe (s : State) (d q : Nat) (f : UeQueue → UeQueue) : State :=
  { s with ues := s.ues.put (d * 64 + q) (f (s.ue d q)) }

/-- LEN of a work request (Table 5 of R302). -/
def requestLen (ws : List Word) : Nat := wbits (wordAt ws 0) 0 32

/-- OP of a work request. -/
def requestOp (ws : List Word) : Nat := wbits (wordAt ws 0) 56 8

/-- Whether a work request is supported, its MBZ fields zero (R302). -/
def requestOk (ws : List Word) : Bool :=
  decide (1 ≤ requestOp ws) && decide (requestOp ws ≤ 3) && decide (wbits (wordAt ws 0) 54 2 ≤ 1)
    && wbits (wordAt ws 0) 32 22 == 0 && wbits (wordAt ws 2) 16 48 == 0 && wbits (wordAt ws 4) 32 32 == 0
    && wordAt ws 6 == 0 && wordAt ws 7 == 0

/-- The service's master class is that of the column's thread contexts (R321, R355). -/
def ueClass : Nat := 0

/-- A request ends: its status and byte count are stored at CADDR, as a release at package scope. -/
def State.endRequest (s : State) (d q : Nat) (ws : List Word) (status count : Nat) : State :=
  (s.virtStore d (s.ue d q).space ueClass (wordAt ws 5).toNat 8 (status * 2 ^ 56 + count % 2 ^ 32)).getD s

/-- The bytes of a request cut into packets of at most 4,096 bytes (R301). -/
def packetsOf (bs : List Byte) : List (List Byte) :=
  (List.range (Nat.max 1 (ceilDiv bs.length 4096))).map fun i => (bs.drop (4096 * i)).take 4096

/-- A send or an RMA write leaves for its peer, with the data at its LADDR, and under ROD with its number in posting order (R302,
R303). The spec gives no status for a PEER outside the endpoint table: it is a free one of 1 to 4. [log 101] -/
def State.sendRequest (s : State) (d q n : Nat) (ws : List Word) : State :=
  let v := s.ue d q
  let len := requestLen ws
  let write := if requestOp ws = 2 then some (wordAt ws 3, wbits (wordAt ws 4) 0 32) else none
  match v.peers[wbits (wordAt ws 2) 0 16]?, s.virtGet d v.space ueClass (wordAt ws 1).toNat len with
  | none, _ => let (k, s1) := s.pick 4; s1.endRequest d q ws (1 + k) 0
  | _, none => s.endRequest d q ws 4 0
  | some peer, some bs =>
    let number := (v.nextOut.get? peer).getD 0
    let rod := if wbits (wordAt ws 0) 54 2 = 1 then some number else none
    let s1 := s.modUe d q fun v =>
      { v with
        outstanding := v.outstanding.put n ws
        nextOut := if rod.isSome then v.nextOut.put peer (number + 1) else v.nextOut }
    s1.tell (.ueSend d q n peer rod write (packetsOf bs))

/-- The service takes request number n of a queue. -/
def State.takeRequest (s : State) (d q n : Nat) : State :=
  let v := s.ue d q
  let va := v.ring.toNat + 64 * (n % 2 ^ v.logn)
  match s.virtGet d v.space ueClass va 64 with
  | none => s
  | some bs =>
    let ws := wordsOf bs
    let len := requestLen ws
    let a := (wordAt ws 1).toNat
    if !requestOk ws then s.endRequest d q ws 3 0
    else if !s.rangeOk d v.space a (if requestOp ws = 3 then .write else .read) ueClass false (pagesOf a len) then
      s.endRequest d q ws 4 0
    else if requestOp ws = 3 then s.modUe d q fun v => { v with receives := v.receives ++ [ws] }
    else s.sendRequest d q n ws

/-- UE_WORK_REQUEST (R302): the firmware sets up a queue; or the service takes the new producer index and every request below
it. -/
def execUeWorkRequest (s : State) : Out :=
  match s.ev with
  | .ueSetup d q ring logn space peers regions =>
    .next (s.modUe d q fun v =>
      { UeQueue.reset with
        ring := ring, logn := logn, space := BitVec.ofNat 16 space, peers := peers, refused := v.refused
        regions := regions.foldl (fun t r => t.put r.1 r.2) [] })
  | .ueWork d q n =>
    let c := (s.ue d q).consumer
    let s1 := (List.range (n - c)).foldl (fun st i => st.takeRequest d q (c + i)) s
    .next (s1.modUe d q fun v => { v with consumer := Nat.max c n })
  | _ => .next s

/-- An outstanding request ends with a status. -/
def State.finishRequest (s : State) (d q wr status count : Nat) : State :=
  match (s.ue d q).outstanding.get? wr with
  | none => s
  | some ws => (s.modUe d q fun v => { v with outstanding := v.outstanding.drop wr }).endRequest d q ws status count

/-- Sets how much of a send has arrived; it is over when all has. A send that does not land keeps no receive. -/
def State.setLanding (s : State) (d q total : Nat) (l : UeLanding) : State :=
  s.modUe d q fun v =>
    let others := v.landings.filter fun x => !(x.peer == l.peer && x.number == l.number)
    { v with landings := if l.count < total then l :: others else others }

/-- The receive in which a send lands: the one it has taken, else the oldest of the queue; one that is too short is ended with
status 2 at both ends (R302). A send that finds none is refused. [log 63] -/
def State.landing (s : State) (d q peer number total : Nat) : UeLanding × State :=
  let v := s.ue d q
  let fresh (ws : List Word) : UeLanding := { peer := peer, number := number, receive := ws, count := 0 }
  match v.landings.find? fun x => x.peer == peer && x.number == number with
  | some l => (l, s)
  | none =>
    match v.receives with
    | [] => (fresh [], s.tell (.ueRefuse d q peer))
    | ws :: rest =>
      let s1 := s.modUe d q fun v => { v with receives := rest }
      if requestLen ws < total then (fresh [], (s1.endRequest d q ws 2 0).tell (.ueRefuse d q peer))
      else (fresh ws, s1)

/-- A part of a send lands at its offset; when all has landed the receive is done (R302, R303). -/
def State.landSend (s : State) (d q peer number total off : Nat) (bs : List Byte) : State :=
  let (l, s1) := s.landing d q peer number total
  let l1 := { l with count := l.count + bs.length }
  if l.receive = [] then s1.setLanding d q total l1
  else
    match s1.virtPut d (s1.ue d q).space ueClass ((wordAt l.receive 1).toNat + off) bs with
    | none => (s1.setLanding d q total { l1 with receive := [] }).endRequest d q l.receive 4 0
    | some s2 =>
      let s3 := s2.setLanding d q total l1
      if total ≤ l1.count then s3.endRequest d q l.receive 0 total else s3

/-- An RMA write: its region key and bounds are checked, then it is performed at its home slices (R302, R303). -/
def State.landWrite (s : State) (d q peer : Nat) (addr : Word) (rkey : Nat) (bs : List Byte) : State :=
  match (s.ue d q).regions.get? rkey with
  | none => s.tell (.ueRefuse d q peer)
  | some (base, size) =>
    if size < addr.toNat + bs.length then s.tell (.ueRefuse d q peer)
    else
      match s.virtPut d (s.ue d q).space ueClass (base.toNat + addr.toNat) bs with
      | none => s.tell (.ueRefuse d q peer)
      | some s1 => s1

/-- The transport's refusal of a packet that it does not implement, which is counted (R301). -/
def State.refuseInbound (s : State) (d q peer : Nat) : State :=
  (s.modUe d q fun v => { v with refused := v.refused + 1 }).tell (.ueRefuse d q peer)

/-- A packet of ROD is delivered in posting order: one that comes early waits, one that has been delivered is dropped (R303). -/
def State.inOrder (s : State) (d q peer : Nat) (rod : Option (Nat × Bool)) (p : UePacket) (k : State → State) : State :=
  match rod with
  | none => k s
  | some (n, last) =>
    let next := ((s.ue d q).nextIn.get? peer).getD 0
    if n < next then s
    else if next < n then s.dueAt (s.wcc + 1) .uePacketReceive (.uePacket d q p)
    else
      let s1 := k s
      if last then s1.modUe d q fun v => { v with nextIn := v.nextIn.put peer (n + 1) } else s1

/-- UE_PACKET_RECEIVE (R301 to R303). -/
def execUePacketReceive (s : State) : Out :=
  match s.ev with
  | .uePacket d q p =>
    match p with
    | .send peer number total off rod bs =>
      .next (if 4096 < bs.length ∨ total < off + bs.length then s.refuseInbound d q peer
        else s.inOrder d q peer rod p fun s => s.landSend d q peer number total off bs)
    | .rmaWrite peer addr rkey rod bs =>
      .next (if 4096 < bs.length then s.refuseInbound d q peer
        else s.inOrder d q peer rod p fun s => s.landWrite d q peer addr rkey bs)
    | .done wr count => .next (s.finishRequest d q wr 0 count)
    | .refusal wr => .next (s.finishRequest d q wr 2 0)
    | .unsupported => .next (s.refuseInbound d q 0)
  | _ => .next s

/-- UE_RETRIES_EXHAUSTED (R302): status 1. -/
def execUeRetriesExhausted (s : State) : Out :=
  match s.ev with
  | .ueWork d q wr => .next (s.finishRequest d q wr 1 0)
  | _ => .next s

end Sys2Proof.Machine
end

