-- ==== Sys2Proof/Machine/Dispatch.lean ====
section
/-! DEFINITION. One arm per constructor of Instr: the direct call of its meaning. -/

namespace Sys2Proof.Machine

/-- What the machine does with an instruction, a stream word or an event. -/
def exec (i : Instr) (s : State) : Host.Outcome State Fault Refusal :=
  match i with
  | .add g d a b => Sys2Proof.Machine.execAdd g d a b s
  | .sub g d a b => Sys2Proof.Machine.execSub g d a b s
  | .mul g d a b => Sys2Proof.Machine.execMul g d a b s
  | .mulhI64 g d a b => Sys2Proof.Machine.execMulhI64 g d a b s
  | .mulhN64 g d a b => Sys2Proof.Machine.execMulhN64 g d a b s
  | .divI64 g d a b => Sys2Proof.Machine.execDivI64 g d a b s
  | .divN64 g d a b => Sys2Proof.Machine.execDivN64 g d a b s
  | .remI64 g d a b => Sys2Proof.Machine.execRemI64 g d a b s
  | .remN64 g d a b => Sys2Proof.Machine.execRemN64 g d a b s
  | .addsatI64 g d a b => Sys2Proof.Machine.execAddsatI64 g d a b s
  | .subsatI64 g d a b => Sys2Proof.Machine.execSubsatI64 g d a b s
  | .abs g d a => Sys2Proof.Machine.execAbs g d a s
  | .neg g d a => Sys2Proof.Machine.execNeg g d a s
  | .and g d a b => Sys2Proof.Machine.execAnd g d a b s
  | .or g d a b => Sys2Proof.Machine.execOr g d a b s
  | .xor g d a b => Sys2Proof.Machine.execXor g d a b s
  | .andn g d a b => Sys2Proof.Machine.execAndn g d a b s
  | .orn g d a b => Sys2Proof.Machine.execOrn g d a b s
  | .xnor g d a b => Sys2Proof.Machine.execXnor g d a b s
  | .shl g d a b => Sys2Proof.Machine.execShl g d a b s
  | .shr g d a b => Sys2Proof.Machine.execShr g d a b s
  | .sar g d a b => Sys2Proof.Machine.execSar g d a b s
  | .rol g d a b => Sys2Proof.Machine.execRol g d a b s
  | .ror g d a b => Sys2Proof.Machine.execRor g d a b s
  | .clz g d a => Sys2Proof.Machine.execClz g d a s
  | .ctz g d a => Sys2Proof.Machine.execCtz g d a s
  | .popc g d a => Sys2Proof.Machine.execPopc g d a s
  | .brev g d a => Sys2Proof.Machine.execBrev g d a s
  | .bswap g d a => Sys2Proof.Machine.execBswap g d a s
  | .minI64 g d a b => Sys2Proof.Machine.execMinI64 g d a b s
  | .maxI64 g d a b => Sys2Proof.Machine.execMaxI64 g d a b s
  | .minN64 g d a b => Sys2Proof.Machine.execMinN64 g d a b s
  | .maxN64 g d a b => Sys2Proof.Machine.execMaxN64 g d a b s
  | .sextI8 g d a => Sys2Proof.Machine.execSextI8 g d a s
  | .sextI16 g d a => Sys2Proof.Machine.execSextI16 g d a s
  | .sextI32 g d a => Sys2Proof.Machine.execSextI32 g d a s
  | .zextN8 g d a => Sys2Proof.Machine.execZextN8 g d a s
  | .zextN16 g d a => Sys2Proof.Machine.execZextN16 g d a s
  | .zextN32 g d a => Sys2Proof.Machine.execZextN32 g d a s
  | .mov g d a => Sys2Proof.Machine.execMov g d a s
  | .sel g d a b k => Sys2Proof.Machine.execSel g d a b k s
  | .lea g d a b k => Sys2Proof.Machine.execLea g d a b k s
  | .addi g d a imm => Sys2Proof.Machine.execAddi g d a imm s
  | .andi g d a imm => Sys2Proof.Machine.execAndi g d a imm s
  | .ori g d a imm => Sys2Proof.Machine.execOri g d a imm s
  | .xori g d a imm => Sys2Proof.Machine.execXori g d a imm s
  | .movi g d imm => Sys2Proof.Machine.execMovi g d imm s
  | .inshi g d imm => Sys2Proof.Machine.execInshi g d imm s
  | .muli g d a imm => Sys2Proof.Machine.execMuli g d a imm s
  | .addiLong g d a imm => Sys2Proof.Machine.execAddiLong g d a imm s
  | .andiLong g d a imm => Sys2Proof.Machine.execAndiLong g d a imm s
  | .oriLong g d a imm => Sys2Proof.Machine.execOriLong g d a imm s
  | .xoriLong g d a imm => Sys2Proof.Machine.execXoriLong g d a imm s
  | .moviLong g d imm => Sys2Proof.Machine.execMoviLong g d imm s
  | .inshiLong g d imm => Sys2Proof.Machine.execInshiLong g d imm s
  | .muliLong g d a imm => Sys2Proof.Machine.execMuliLong g d a imm s
  | .shli g d a n => Sys2Proof.Machine.execShli g d a n s
  | .shri g d a n => Sys2Proof.Machine.execShri g d a n s
  | .sari g d a n => Sys2Proof.Machine.execSari g d a n s
  | .rori g d a n => Sys2Proof.Machine.execRori g d a n s
  | .cmp g e a b w c => Sys2Proof.Machine.execCmp g e a b w c s
  | .cmpi g e a c imm => Sys2Proof.Machine.execCmpi g e a c imm s
  | .pand g e f h => Sys2Proof.Machine.execPand g e f h s
  | .por g e f h => Sys2Proof.Machine.execPor g e f h s
  | .pxor g e f h => Sys2Proof.Machine.execPxor g e f h s
  | .pandn g e f h => Sys2Proof.Machine.execPandn g e f h s
  | .pnot g e f => Sys2Proof.Machine.execPnot g e f s
  | .rdp g d => Sys2Proof.Machine.execRdp g d s
  | .wrp g a => Sys2Proof.Machine.execWrp g a s
  | .fcmp g e a b t c => Sys2Proof.Machine.execFcmp g e a b t c s
  | .faddF64 g d a b r => Sys2Proof.Machine.execFaddF64 g d a b r s
  | .fsubF64 g d a b r => Sys2Proof.Machine.execFsubF64 g d a b r s
  | .fmulF64 g d a b r => Sys2Proof.Machine.execFmulF64 g d a b r s
  | .fdivF64 g d a b r => Sys2Proof.Machine.execFdivF64 g d a b r s
  | .fsqrtF64 g d a r => Sys2Proof.Machine.execFsqrtF64 g d a r s
  | .fmaF64 g d a b r => Sys2Proof.Machine.execFmaF64 g d a b r s
  | .fminF64 g d a b => Sys2Proof.Machine.execFminF64 g d a b s
  | .fmaxF64 g d a b => Sys2Proof.Machine.execFmaxF64 g d a b s
  | .fabsF64 g d a => Sys2Proof.Machine.execFabsF64 g d a s
  | .fnegF64 g d a => Sys2Proof.Machine.execFnegF64 g d a s
  | .faddF32 g d a b r => Sys2Proof.Machine.execFaddF32 g d a b r s
  | .fsubF32 g d a b r => Sys2Proof.Machine.execFsubF32 g d a b r s
  | .fmulF32 g d a b r => Sys2Proof.Machine.execFmulF32 g d a b r s
  | .fdivF32 g d a b r => Sys2Proof.Machine.execFdivF32 g d a b r s
  | .fsqrtF32 g d a r => Sys2Proof.Machine.execFsqrtF32 g d a r s
  | .fmaF32 g d a b r => Sys2Proof.Machine.execFmaF32 g d a b r s
  | .fminF32 g d a b => Sys2Proof.Machine.execFminF32 g d a b s
  | .fmaxF32 g d a b => Sys2Proof.Machine.execFmaxF32 g d a b s
  | .fabsF32 g d a => Sys2Proof.Machine.execFabsF32 g d a s
  | .fnegF32 g d a => Sys2Proof.Machine.execFnegF32 g d a s
  | .cvt g d a r u t => Sys2Proof.Machine.execCvt g d a r u t s
  | .lnadd g d a b t => Sys2Proof.Machine.execLnadd g d a b t s
  | .lnsub g d a b t => Sys2Proof.Machine.execLnsub g d a b t s
  | .lnmul g d a b t => Sys2Proof.Machine.execLnmul g d a b t s
  | .lnmin g d a b t => Sys2Proof.Machine.execLnmin g d a b t s
  | .lnmax g d a b t => Sys2Proof.Machine.execLnmax g d a b t s
  | .lnand g d a b t => Sys2Proof.Machine.execLnand g d a b t s
  | .lnor g d a b t => Sys2Proof.Machine.execLnor g d a b t s
  | .lnxor g d a b t => Sys2Proof.Machine.execLnxor g d a b t s
  | .lnfma g d a b t => Sys2Proof.Machine.execLnfma g d a b t s
  | .lncpy g d a t => Sys2Proof.Machine.execLncpy g d a t s
  | .lnsum g d a t => Sys2Proof.Machine.execLnsum g d a t s
  | .lndot g d a b t => Sys2Proof.Machine.execLndot g d a b t s
  | .br g h d => Sys2Proof.Machine.execBr g h d s
  | .call g d => Sys2Proof.Machine.execCall g d s
  | .ret g => Sys2Proof.Machine.execRet g s
  | .jmpi g a => Sys2Proof.Machine.execJmpi g a s
  | .calli g a => Sys2Proof.Machine.execCalli g a s
  | .follow g a => Sys2Proof.Machine.execFollow g a s
  | .detach g => Sys2Proof.Machine.execDetach g s
  | .rejoin g => Sys2Proof.Machine.execRejoin g s
  | .waitcPcc g a k => Sys2Proof.Machine.execWaitcPcc g a k s
  | .waitcWcc g a => Sys2Proof.Machine.execWaitcWcc g a s
  | .rdcycPcc g d k => Sys2Proof.Machine.execRdcycPcc g d k s
  | .rdcycWcc g d => Sys2Proof.Machine.execRdcycWcc g d s
  | .halt g => Sys2Proof.Machine.execHalt g s
  | .haltRetain g a => Sys2Proof.Machine.execHaltRetain g a s
  | .yield g => Sys2Proof.Machine.execYield g s
  | .ld g d a z x imm o => Sys2Proof.Machine.execLd g d a z x imm o s
  | .st g d a z imm o => Sys2Proof.Machine.execSt g d a z imm o s
  | .ldAcq g d a z x u => Sys2Proof.Machine.execLdAcq g d a z x u s
  | .stRel g d a z u => Sys2Proof.Machine.execStRel g d a z u s
  | .mark g => Sys2Proof.Machine.execMark g s
  | .fence g a => Sys2Proof.Machine.execFence g a s
  | .drainPool g => Sys2Proof.Machine.execDrainPool g s
  | .drainCluster g => Sys2Proof.Machine.execDrainCluster g s
  | .drainHbm g => Sys2Proof.Machine.execDrainHbm g s
  | .drainTier g => Sys2Proof.Machine.execDrainTier g s
  | .cwb g a => Sys2Proof.Machine.execCwb g a s
  | .cinv g a => Sys2Proof.Machine.execCinv g a s
  | .cflush g a => Sys2Proof.Machine.execCflush g a s
  | .cwbr g a b => Sys2Proof.Machine.execCwbr g a b s
  | .cinvr g a b => Sys2Proof.Machine.execCinvr g a b s
  | .cflushr g a b => Sys2Proof.Machine.execCflushr g a b s
  | .l1inv g => Sys2Proof.Machine.execL1inv g s
  | .faa g d a b l o z => Sys2Proof.Machine.execFaa g d a b l o z s
  | .cas g d a b l f o z => Sys2Proof.Machine.execCas g d a b l f o z s
  | .swp g d a b l o z => Sys2Proof.Machine.execSwp g d a b l o z s
  | .atomicAnd g d a b l o z => Sys2Proof.Machine.execAtomicAnd g d a b l o z s
  | .atomicOr g d a b l o z => Sys2Proof.Machine.execAtomicOr g d a b l o z s
  | .atomicXor g d a b l o z => Sys2Proof.Machine.execAtomicXor g d a b l o z s
  | .atomicMinI g d a b l o z => Sys2Proof.Machine.execAtomicMinI g d a b l o z s
  | .atomicMaxI g d a b l o z => Sys2Proof.Machine.execAtomicMaxI g d a b l o z s
  | .atomicMinN g d a b l o z => Sys2Proof.Machine.execAtomicMinN g d a b l o z s
  | .atomicMaxN g d a b l o z => Sys2Proof.Machine.execAtomicMaxN g d a b l o z s
  | .fadda g d a b l o z => Sys2Proof.Machine.execFadda g d a b l o z s
  | .redc g a b l o z => Sys2Proof.Machine.execRedc g a b l o z s
  | .spawnu g a b k => Sys2Proof.Machine.execSpawnu g a b k s
  | .mig g a => Sys2Proof.Machine.execMig g a s
  | .home g => Sys2Proof.Machine.execHome g s
  | .send g a b n => Sys2Proof.Machine.execSend g a b n s
  | .mcast g a b n => Sys2Proof.Machine.execMcast g a b n s
  | .recv g c => Sys2Proof.Machine.execRecv g c s
  | .bind g d c => Sys2Proof.Machine.execBind g d c s
  | .spawn g a => Sys2Proof.Machine.execSpawn g a s
  | .join g a => Sys2Proof.Machine.execJoin g a s
  | .taskend g => Sys2Proof.Machine.execTaskend g s
  | .epushCopy g a => Sys2Proof.Machine.execEpushCopy g a s
  | .epushGather g a => Sys2Proof.Machine.execEpushGather g a s
  | .epushColl g a => Sys2Proof.Machine.execEpushColl g a s
  | .epopCopy g d => Sys2Proof.Machine.execEpopCopy g d s
  | .epopGather g d => Sys2Proof.Machine.execEpopGather g d s
  | .epopColl g d => Sys2Proof.Machine.execEpopColl g d s
  | .post g a b => Sys2Proof.Machine.execPost g a b s
  | .job g d k => Sys2Proof.Machine.execJob g d k s
  | .jobRel g d k => Sys2Proof.Machine.execJobRel g d k s
  | .salloc g d a b => Sys2Proof.Machine.execSalloc g d a b s
  | .sallocMir g d a b => Sys2Proof.Machine.execSallocMir g d a b s
  | .sfree g a => Sys2Proof.Machine.execSfree g a s
  | .sinfoSize g d a => Sys2Proof.Machine.execSinfoSize g d a s
  | .sinfoHealth g d a => Sys2Proof.Machine.execSinfoHealth g d a s
  | .sinfoQuota g d a => Sys2Proof.Machine.execSinfoQuota g d a s
  | .sinfoInc g d a => Sys2Proof.Machine.execSinfoInc g d a s
  | .dotm g d a t => Sys2Proof.Machine.execDotm g d a t s
  | .eret g => Sys2Proof.Machine.execEret g s
  | .xinv g a b => Sys2Proof.Machine.execXinv g a b s
  | .snap g => Sys2Proof.Machine.execSnap g s
  | .bkpt g => Sys2Proof.Machine.execBkpt g s
  | .trap g n => Sys2Proof.Machine.execTrap g n s
  | .sysr g d r => Sys2Proof.Machine.execSysr g d r s
  | .sysw g a r => Sys2Proof.Machine.execSysw g a r s
  | .syswWp g a => Sys2Proof.Machine.execSyswWp g a s
  | .syswSpace g a => Sys2Proof.Machine.execSyswSpace g a s
  | .syswBndW g a => Sys2Proof.Machine.execSyswBndW g a s
  | .syswBndS g a => Sys2Proof.Machine.execSyswBndS g a s
  | .syswBndL g a => Sys2Proof.Machine.execSyswBndL g a s
  | .syswWin g a w => Sys2Proof.Machine.execSyswWin g a w s
  | .syswHmask g a h => Sys2Proof.Machine.execSyswHmask g a h s
  | .syswSlotmap g a => Sys2Proof.Machine.execSyswSlotmap g a s
  | .syswDomtabB g a k => Sys2Proof.Machine.execSyswDomtabB g a k s
  | .syswDomtabL g a k => Sys2Proof.Machine.execSyswDomtabL g a k s
  | .lit v => Sys2Proof.Machine.execLit v s
  | .ext v => Sys2Proof.Machine.execExt v s
  | .shls k n => Sys2Proof.Machine.execShls k n s
  | .setf n => Sys2Proof.Machine.execSetf n s
  | .take e => Sys2Proof.Machine.execTake e s
  | .await n => Sys2Proof.Machine.execAwait n s
  | .ldw n => Sys2Proof.Machine.execLdw n s
  | .lda n => Sys2Proof.Machine.execLda n s
  | .lds n => Sys2Proof.Machine.execLds n s
  | .pfw f => Sys2Proof.Machine.execPfw f s
  | .pfa f => Sys2Proof.Machine.execPfa f s
  | .tfw n => Sys2Proof.Machine.execTfw n s
  | .tfa n => Sys2Proof.Machine.execTfa n s
  | .gta n => Sys2Proof.Machine.execGta n s
  | .mma u r w a => Sys2Proof.Machine.execMma u r w a s
  | .mmaz u r w a => Sys2Proof.Machine.execMmaz u r w a s
  | .dwa u => Sys2Proof.Machine.execDwa u s
  | .dwaz u => Sys2Proof.Machine.execDwaz u s
  | .vadd u => Sys2Proof.Machine.execVadd u s
  | .vsub u => Sys2Proof.Machine.execVsub u s
  | .vmul u => Sys2Proof.Machine.execVmul u s
  | .vfma u => Sys2Proof.Machine.execVfma u s
  | .vmax u => Sys2Proof.Machine.execVmax u s
  | .vmin u => Sys2Proof.Machine.execVmin u s
  | .vabs u => Sys2Proof.Machine.execVabs u s
  | .vexp u => Sys2Proof.Machine.execVexp u s
  | .vrcp u => Sys2Proof.Machine.execVrcp u s
  | .vrsq u => Sys2Proof.Machine.execVrsq u s
  | .vsel u => Sys2Proof.Machine.execVsel u s
  | .vcmp u c => Sys2Proof.Machine.execVcmp u c s
  | .vred u o => Sys2Proof.Machine.execVred u o s
  | .vcvt d u => Sys2Proof.Machine.execVcvt d u s
  | .vres u imm => Sys2Proof.Machine.execVres u imm s
  | .vcmpu u c => Sys2Proof.Machine.execVcmpu u c s
  | .vrq u imm => Sys2Proof.Machine.execVrq u imm s
  | .vmov u => Sys2Proof.Machine.execVmov u s
  | .cprs u imm => Sys2Proof.Machine.execCprs u imm s
  | .cprh u imm => Sys2Proof.Machine.execCprh u imm s
  | .topr u => Sys2Proof.Machine.execTopr u s
  | .topc u => Sys2Proof.Machine.execTopc u s
  | .fillc n => Sys2Proof.Machine.execFillc n s
  | .dup => Sys2Proof.Machine.execDup s
  | .drop => Sys2Proof.Machine.execDrop s
  | .swap => Sys2Proof.Machine.execSwap s
  | .over => Sys2Proof.Machine.execOver s
  | .adds => Sys2Proof.Machine.execAdds s
  | .subs => Sys2Proof.Machine.execSubs s
  | .atW => Sys2Proof.Machine.execAtW s
  | .dt => Sys2Proof.Machine.execDt s
  | .rdv => Sys2Proof.Machine.execRdv s
  | .loopW => Sys2Proof.Machine.execLoopW s
  | .loopReg => Sys2Proof.Machine.execLoopReg s
  | .endl => Sys2Proof.Machine.execEndl s
  | .ppt => Sys2Proof.Machine.execPpt s
  | .haltj => Sys2Proof.Machine.execHaltj s
  | .nopw => Sys2Proof.Machine.execNopw s
  | .fmt => Sys2Proof.Machine.execFmt s
  | .ctab => Sys2Proof.Machine.execCtab s
  | .tsclW => Sys2Proof.Machine.execTsclW s
  | .tsclA => Sys2Proof.Machine.execTsclA s
  | .oasis => Sys2Proof.Machine.execOasis s
  | .segt => Sys2Proof.Machine.execSegt s
  | .manc => Sys2Proof.Machine.execManc s
  | .mancOff => Sys2Proof.Machine.execMancOff s
  | .selk => Sys2Proof.Machine.execSelk s
  | .shape => Sys2Proof.Machine.execShape s
  | .rdpcc => Sys2Proof.Machine.execRdpcc s
  | .cpaa => Sys2Proof.Machine.execCpaa s
  | .cpah => Sys2Proof.Machine.execCpah s
  | .spill => Sys2Proof.Machine.execSpill s
  | .jobAccept => Sys2Proof.Machine.execJobAccept s
  | .decodeStart => Sys2Proof.Machine.execDecodeStart s
  | .oasisClose => Sys2Proof.Machine.execOasisClose s
  | .postArrival => Sys2Proof.Machine.execPostArrival s
  | .postAck => Sys2Proof.Machine.execPostAck s
  | .holdOnset => Sys2Proof.Machine.execHoldOnset s
  | .haboobEnd => Sys2Proof.Machine.execHaboobEnd s
  | .segmentRedirect => Sys2Proof.Machine.execSegmentRedirect s
  | .maxgapExpiry => Sys2Proof.Machine.execMaxgapExpiry s
  | .loadDeadline => Sys2Proof.Machine.execLoadDeadline s
  | .loadLanding => Sys2Proof.Machine.execLoadLanding s
  | .tileRowComplete => Sys2Proof.Machine.execTileRowComplete s
  | .vxeStepComplete => Sys2Proof.Machine.execVxeStepComplete s
  | .cpeWritePerformed => Sys2Proof.Machine.execCpeWritePerformed s
  | .milestoneStore => Sys2Proof.Machine.execMilestoneStore s
  | .jobComplete => Sys2Proof.Machine.execJobComplete s
  | .jobFaultRecord => Sys2Proof.Machine.execJobFaultRecord s
  | .bankClearEnd => Sys2Proof.Machine.execBankClearEnd s
  | .bankWriteOutEnd => Sys2Proof.Machine.execBankWriteOutEnd s
  | .bankFillEnd => Sys2Proof.Machine.execBankFillEnd s
  | .victimStop => Sys2Proof.Machine.execVictimStop s
  | .displacementTimeout => Sys2Proof.Machine.execDisplacementTimeout s
  | .jobResume => Sys2Proof.Machine.execJobResume s
  | .oasisAccessArrival => Sys2Proof.Machine.execOasisAccessArrival s
  | .oasisStoreBufferDrain => Sys2Proof.Machine.execOasisStoreBufferDrain s
  | .partitionForm => Sys2Proof.Machine.execPartitionForm s
  | .partitionDissolve => Sys2Proof.Machine.execPartitionDissolve s
  | .alignPartitions => Sys2Proof.Machine.execAlignPartitions s
  | .slotmapTakeEffect => Sys2Proof.Machine.execSlotmapTakeEffect s
  | .packetFetch => Sys2Proof.Machine.execPacketFetch s
  | .packetRefetch => Sys2Proof.Machine.execPacketRefetch s
  | .packetLaunch => Sys2Proof.Machine.execPacketLaunch s
  | .launchPlacement => Sys2Proof.Machine.execLaunchPlacement s
  | .packetGraph => Sys2Proof.Machine.execPacketGraph s
  | .packetCopy => Sys2Proof.Machine.execPacketCopy s
  | .packetWait => Sys2Proof.Machine.execPacketWait s
  | .packetSignal => Sys2Proof.Machine.execPacketSignal s
  | .packetFence => Sys2Proof.Machine.execPacketFence s
  | .interruptSend => Sys2Proof.Machine.execInterruptSend s
  | .graphNodeStart => Sys2Proof.Machine.execGraphNodeStart s
  | .waitNodePoll => Sys2Proof.Machine.execWaitNodePoll s
  | .copyNodeDone => Sys2Proof.Machine.execCopyNodeDone s
  | .signalNodeDone => Sys2Proof.Machine.execSignalNodeDone s
  | .localStart => Sys2Proof.Machine.execLocalStart s
  | .stealProbe => Sys2Proof.Machine.execStealProbe s
  | .stealProbeComplete => Sys2Proof.Machine.execStealProbeComplete s
  | .caravanAdmission => Sys2Proof.Machine.execCaravanAdmission s
  | .caravanReturnHome => Sys2Proof.Machine.execCaravanReturnHome s
  | .caravanLost => Sys2Proof.Machine.execCaravanLost s
  | .messageArrival => Sys2Proof.Machine.execMessageArrival s
  | .messageDeposit => Sys2Proof.Machine.execMessageDeposit s
  | .sendReply => Sys2Proof.Machine.execSendReply s
  | .mcastAck => Sys2Proof.Machine.execMcastAck s
  | .remoteUpdateApply => Sys2Proof.Machine.execRemoteUpdateApply s
  | .waitcWake => Sys2Proof.Machine.execWaitcWake s
  | .joinRelease => Sys2Proof.Machine.execJoinRelease s
  | .threadLoadReply => Sys2Proof.Machine.execThreadLoadReply s
  | .storePerformed => Sys2Proof.Machine.execStorePerformed s
  | .atomicReply => Sys2Proof.Machine.execAtomicReply s
  | .windowStoreAck => Sys2Proof.Machine.execWindowStoreAck s
  | .translationWalk => Sys2Proof.Machine.execTranslationWalk s
  | .sharedUnitGrant => Sys2Proof.Machine.execSharedUnitGrant s
  | .maintenanceWalkDone => Sys2Proof.Machine.execMaintenanceWalkDone s
  | .drainComplete => Sys2Proof.Machine.execDrainComplete s
  | .xinvComplete => Sys2Proof.Machine.execXinvComplete s
  | .sallocReply => Sys2Proof.Machine.execSallocReply s
  | .sfreeReply => Sys2Proof.Machine.execSfreeReply s
  | .dotmComplete => Sys2Proof.Machine.execDotmComplete s
  | .engineCommandStart => Sys2Proof.Machine.execEngineCommandStart s
  | .copyCommandComplete => Sys2Proof.Machine.execCopyCommandComplete s
  | .gatherElementPush => Sys2Proof.Machine.execGatherElementPush s
  | .collectiveComplete => Sys2Proof.Machine.execCollectiveComplete s
  | .terminationWave => Sys2Proof.Machine.execTerminationWave s
  | .jobDoneReport => Sys2Proof.Machine.execJobDoneReport s
  | .jobDeadlockReport => Sys2Proof.Machine.execJobDeadlockReport s
  | .wakeWrite => Sys2Proof.Machine.execWakeWrite s
  | .qctlResume => Sys2Proof.Machine.execQctlResume s
  | .qctlSuspend => Sys2Proof.Machine.execQctlSuspend s
  | .qctlDiscard => Sys2Proof.Machine.execQctlDiscard s
  | .hostBar2Read => Sys2Proof.Machine.execHostBar2Read s
  | .hostBar2Write => Sys2Proof.Machine.execHostBar2Write s
  | .powerGateEntry => Sys2Proof.Machine.execPowerGateEntry s
  | .wakeSequenceEnd => Sys2Proof.Machine.execWakeSequenceEnd s
  | .supplyFault => Sys2Proof.Machine.execSupplyFault s
  | .powerOnBoot => Sys2Proof.Machine.execPowerOnBoot s
  | .sidebandReadStatus => Sys2Proof.Machine.execSidebandReadStatus s
  | .sidebandSetPower => Sys2Proof.Machine.execSidebandSetPower s
  | .sidebandNameSnapshot => Sys2Proof.Machine.execSidebandNameSnapshot s
  | .sidebandClearFault => Sys2Proof.Machine.execSidebandClearFault s
  | .sidebandAttest => Sys2Proof.Machine.execSidebandAttest s
  | .snapshotCapture => Sys2Proof.Machine.execSnapshotCapture s
  | .firewallReload => Sys2Proof.Machine.execFirewallReload s
  | .switchLossNotice => Sys2Proof.Machine.execSwitchLossNotice s
  | .portLossNotice => Sys2Proof.Machine.execPortLossNotice s
  | .switchReadmission => Sys2Proof.Machine.execSwitchReadmission s
  | .mirrorFillDone => Sys2Proof.Machine.execMirrorFillDone s
  | .flitReplay => Sys2Proof.Machine.execFlitReplay s
  | .packetStomp => Sys2Proof.Machine.execPacketStomp s
  | .linkDown => Sys2Proof.Machine.execLinkDown s
  | .fabricPacketReceive => Sys2Proof.Machine.execFabricPacketReceive s
  | .controlFlit => Sys2Proof.Machine.execControlFlit s
  | .keySlotLoad => Sys2Proof.Machine.execKeySlotLoad s
  | .keySlotZero => Sys2Proof.Machine.execKeySlotZero s
  | .nonceCounterWrap => Sys2Proof.Machine.execNonceCounterWrap s
  | .ueWorkRequest => Sys2Proof.Machine.execUeWorkRequest s
  | .uePacketReceive => Sys2Proof.Machine.execUePacketReceive s
  | .interleavePending => Sys2Proof.Machine.execInterleavePending s
  | .interleaveAdopt => Sys2Proof.Machine.execInterleaveAdopt s
  | .movedReplay => Sys2Proof.Machine.execMovedReplay s
  | .illegalInstruction => Sys2Proof.Machine.execIllegalInstruction s
  | .illegalWord => Sys2Proof.Machine.execIllegalWord s
  | .fetchFault => Sys2Proof.Machine.execFetchFault s
  | .runOff => Sys2Proof.Machine.execRunOff s
  | .pinnedEntryAccept => Sys2Proof.Machine.execPinnedEntryAccept s
  | .portLossClear => Sys2Proof.Machine.execPortLossClear s
  | .linkRetrainDone => Sys2Proof.Machine.execLinkRetrainDone s
  | .partitionDealign => Sys2Proof.Machine.execPartitionDealign s
  | .snapshotWriteDone => Sys2Proof.Machine.execSnapshotWriteDone s
  | .ueRetriesExhausted => Sys2Proof.Machine.execUeRetriesExhausted s
  | .hostLinkTraining => Sys2Proof.Machine.execHostLinkTraining s
  | .quotaChange => Sys2Proof.Machine.execQuotaChange s
  | .domainFormation => Sys2Proof.Machine.execDomainFormation s

end Sys2Proof.Machine
end

