-- ==== Sys2Proof/Decode.lean ====
section
/-! DEFINITION. From bits to instructions (R22 to R31): thread words, prefix pairs and the words of the five engine
streams, each total and refusing what the tables leave unassigned; then the encoders, from the same tables. -/

namespace Sys2Proof

/-- Why bits stand for no instruction. -/
inductive Reject where
  /-- R24: an unassigned major, func10 or sub-field code, or a nonzero MBZ or unused field. -/
  | illegalInstruction
  /-- R26: a second word that takes no prefix word before it. -/
  | badPair
  /-- R29, R30: an unassigned op, modifier or suffix code. -/
  | illegalWord
  /-- Fewer bytes than the instruction has. -/
  | truncated
  deriving DecidableEq, Repr

/-- The n bits of w from bit lo upward, as a number. -/
def fld (w lo n : Nat) : Nat := w / 2 ^ lo % 2 ^ n

/-- The n bits of w from bit lo upward. -/
def bits (n w lo : Nat) : BitVec n := BitVec.ofNat n (w / 2 ^ lo)

/-- The guard fields (Table 4 of R22). -/
def guardOf (w : Nat) : Guard := ⟨bits 1 w 25, bits 3 w 22⟩

/-- An instruction when its unused fields are zero. -/
def need (ok : Bool) (i : Instr) : Option Instr := if ok then some i else none

/-- rb is unused: [13:10] is zero. -/
def noB (w : Nat) : Bool := fld w 10 4 == 0

/-- ra and rb are unused: [17:10] is zero. -/
def noAB (w : Nat) : Bool := fld w 10 8 == 0

/-- rd and rb are unused. -/
def noDB (w : Nat) : Bool := fld w 18 4 == 0 && fld w 10 4 == 0

/-- rd is unused. -/
def noD (w : Nat) : Bool := fld w 18 4 == 0

/-- No register field is used: [21:10] is zero. -/
def noRegs (w : Nat) : Bool := fld w 10 12 == 0

/-- Majors 0x01 to 0x04 (Table 7 of R27). -/
def decodeArith (major w : Nat) : Option Instr :=
  let g := guardOf w
  let d : Reg := bits 4 w 18
  let a : Reg := bits 4 w 14
  let b : Reg := bits 4 w 10
  let f := fld w 0 10
  match major with
  | 0x01 =>
    match f with
    | 0x000 => some (.add g d a b)
    | 0x001 => some (.sub g d a b)
    | 0x002 => some (.mul g d a b)
    | 0x003 => some (.mulhI64 g d a b)
    | 0x004 => some (.mulhN64 g d a b)
    | 0x005 => some (.divI64 g d a b)
    | 0x006 => some (.divN64 g d a b)
    | 0x007 => some (.remI64 g d a b)
    | 0x008 => some (.remN64 g d a b)
    | 0x009 => some (.addsatI64 g d a b)
    | 0x00A => some (.subsatI64 g d a b)
    | 0x00B => need (noB w) (.abs g d a)
    | 0x00C => need (noB w) (.neg g d a)
    | _ => none
  | 0x02 =>
    match f with
    | 0x000 => some (.and g d a b)
    | 0x001 => some (.or g d a b)
    | 0x002 => some (.xor g d a b)
    | 0x003 => some (.andn g d a b)
    | 0x004 => some (.orn g d a b)
    | 0x005 => some (.xnor g d a b)
    | 0x006 => some (.shl g d a b)
    | 0x007 => some (.shr g d a b)
    | 0x008 => some (.sar g d a b)
    | 0x009 => some (.rol g d a b)
    | 0x00A => some (.ror g d a b)
    | 0x00B => need (noB w) (.clz g d a)
    | 0x00C => need (noB w) (.ctz g d a)
    | 0x00D => need (noB w) (.popc g d a)
    | 0x00E => need (noB w) (.brev g d a)
    | 0x00F => need (noB w) (.bswap g d a)
    | _ => none
  | 0x03 =>
    match f with
    | 0x000 => some (.minI64 g d a b)
    | 0x001 => some (.maxI64 g d a b)
    | 0x002 => some (.minN64 g d a b)
    | 0x003 => some (.maxN64 g d a b)
    | 0x004 => need (noB w) (.sextI8 g d a)
    | 0x005 => need (noB w) (.sextI16 g d a)
    | 0x006 => need (noB w) (.sextI32 g d a)
    | 0x007 => need (noB w) (.zextN8 g d a)
    | 0x008 => need (noB w) (.zextN16 g d a)
    | 0x009 => need (noB w) (.zextN32 g d a)
    | 0x00A => need (noB w) (.mov g d a)
    | _ => need (fld w 3 7 == 2) (.sel g d a b (bits 3 w 0))
  | 0x04 => need (fld w 2 8 == 0) (.lea g d a b (bits 2 w 0))
  | _ => none

/-- Majors 0x08 to 0x0F (layout RI). -/
def decodeImmediate (major w : Nat) : Option Instr :=
  let g := guardOf w
  let d : Reg := bits 4 w 18
  let a : Reg := bits 4 w 14
  let i := bits 14 w 0
  match major with
  | 0x08 => some (.addi g d a i)
  | 0x09 => some (.andi g d a i)
  | 0x0A => some (.ori g d a i)
  | 0x0B => some (.xori g d a i)
  | 0x0C =>
    if fld w 6 6 == 0 then
      match fld w 12 2 with
      | 0 => some (.shli g d a (bits 6 w 0))
      | 1 => some (.shri g d a (bits 6 w 0))
      | 2 => some (.sari g d a (bits 6 w 0))
      | _ => some (.rori g d a (bits 6 w 0))
    else none
  | 0x0D => need (fld w 14 4 == 0) (.movi g d i)
  | 0x0E => need (fld w 14 4 == 0) (.inshi g d i)
  | 0x0F => some (.muli g d a i)
  | _ => none

/-- Majors 0x10 to 0x13 (layout PR). -/
def decodePredicate (major w : Nat) : Option Instr :=
  let g := guardOf w
  let e := bits 3 w 18
  let a : Reg := bits 4 w 14
  let b : Reg := bits 4 w 10
  let pf := bits 3 w 14
  let ph := bits 3 w 10
  match major with
  | 0x10 => need (fld w 21 1 == 0 && fld w 5 5 == 0) (.cmp g e a b (bits 1 w 4) (bits 4 w 0))
  | 0x11 => need (fld w 21 1 == 0) (.cmpi g e a (bits 4 w 10) (bits 10 w 0))
  | 0x12 =>
    let logic := fld w 21 1 == 0 && fld w 17 1 == 0 && fld w 13 1 == 0
    match fld w 0 10 with
    | 0x000 => need logic (.pand g e pf ph)
    | 0x001 => need logic (.por g e pf ph)
    | 0x002 => need logic (.pxor g e pf ph)
    | 0x003 => need logic (.pandn g e pf ph)
    | 0x004 => need (logic && fld w 10 3 == 0) (.pnot g e pf)
    | 0x005 => need (noAB w) (.rdp g (bits 4 w 18))
    | 0x006 => need (noDB w) (.wrp g a)
    | _ => none
  | 0x13 => need (fld w 21 1 == 0 && fld w 4 6 == 0) (.fcmp g e a b (bits 1 w 3) (bits 3 w 0))
  | _ => none

/-- Majors 0x14 to 0x16: scalar floating point (R52, R53). -/
def decodeFloat (major w : Nat) : Option Instr :=
  let g := guardOf w
  let d : Reg := bits 4 w 18
  let a : Reg := bits 4 w 14
  let b : Reg := bits 4 w 10
  let r := bits 2 w 8
  let plain := fld w 8 2 == 0
  match major with
  | 0x14 =>
    match fld w 0 8 with
    | 0x00 => some (.faddF64 g d a b r)
    | 0x01 => some (.fsubF64 g d a b r)
    | 0x02 => some (.fmulF64 g d a b r)
    | 0x03 => some (.fdivF64 g d a b r)
    | 0x04 => need (noB w) (.fsqrtF64 g d a r)
    | 0x05 => some (.fmaF64 g d a b r)
    | 0x06 => need plain (.fminF64 g d a b)
    | 0x07 => need plain (.fmaxF64 g d a b)
    | 0x08 => need (plain && noB w) (.fabsF64 g d a)
    | 0x09 => need (plain && noB w) (.fnegF64 g d a)
    | _ => none
  | 0x15 =>
    match fld w 0 8 with
    | 0x00 => some (.faddF32 g d a b r)
    | 0x01 => some (.fsubF32 g d a b r)
    | 0x02 => some (.fmulF32 g d a b r)
    | 0x03 => some (.fdivF32 g d a b r)
    | 0x04 => need (noB w) (.fsqrtF32 g d a r)
    | 0x05 => some (.fmaF32 g d a b r)
    | 0x06 => need plain (.fminF32 g d a b)
    | 0x07 => need plain (.fmaxF32 g d a b)
    | 0x08 => need (plain && noB w) (.fabsF32 g d a)
    | 0x09 => need (plain && noB w) (.fnegF32 g d a)
    | _ => none
  | 0x16 => need (noB w) (.cvt g d a r (bits 4 w 4) (bits 4 w 0))
  | _ => none

/-- Majors 0x18 and 0x19: lane stream ops (R56 to R60). -/
def decodeLane (major w : Nat) : Option Instr :=
  let g := guardOf w
  let d : Reg := bits 4 w 18
  let a : Reg := bits 4 w 14
  let b : Reg := bits 4 w 10
  let t := bits 4 w 0
  match major with
  | 0x18 =>
    match fld w 4 6 with
    | 0 => some (.lnadd g d a b t)
    | 1 => some (.lnsub g d a b t)
    | 2 => some (.lnmul g d a b t)
    | 3 => some (.lnmin g d a b t)
    | 4 => some (.lnmax g d a b t)
    | 5 => some (.lnand g d a b t)
    | 6 => some (.lnor g d a b t)
    | 7 => some (.lnxor g d a b t)
    | 8 => some (.lnfma g d a b t)
    | 9 => need (noB w) (.lncpy g d a t)
    | _ => none
  | 0x19 =>
    match fld w 4 6 with
    | 0 => need (noB w) (.lnsum g d a t)
    | 1 => some (.lndot g d a b t)
    | _ => none
  | _ => none

/-- Majors 0x1C to 0x1E: branches, calls and register control (R63 to R72). -/
def decodeControl (major w : Nat) : Option Instr :=
  let g := guardOf w
  let a : Reg := bits 4 w 14
  match major with
  | 0x1C => some (.br g (bits 2 w 20) (bits 20 w 0))
  | 0x1D => need (fld w 20 2 == 0) (.call g (bits 20 w 0))
  | 0x1E =>
    match fld w 0 10 with
    | 0x000 => need (noRegs w) (.ret g)
    | 0x001 => need (noDB w) (.jmpi g a)
    | 0x002 => need (noDB w) (.calli g a)
    | 0x010 => need (noDB w) (.follow g a)
    | 0x011 => need (noRegs w) (.detach g)
    | 0x012 => need (noRegs w) (.rejoin g)
    | 0x028 => need (noDB w) (.waitcWcc g a)
    | 0x038 => need (noAB w) (.rdcycWcc g (bits 4 w 18))
    | 0x040 => need (noRegs w) (.halt g)
    | 0x041 => need (noDB w) (.haltRetain g a)
    | 0x050 => need (noRegs w) (.yield g)
    | _ =>
      match fld w 3 7 with
      | 4 => need (noDB w) (.waitcPcc g a (bits 3 w 0))
      | 6 => need (noAB w) (.rdcycPcc g (bits 4 w 18) (bits 3 w 0))
      | _ => none
  | _ => none

/-- Majors 0x20 to 0x25: loads, stores, ordering points, cache maintenance (R75 to R82). -/
def decodeMemory (major w : Nat) : Option Instr :=
  let g := guardOf w
  let d : Reg := bits 4 w 18
  let a : Reg := bits 4 w 14
  let b : Reg := bits 4 w 10
  let z := bits 2 w 12
  match major with
  | 0x20 => some (.ld g d a z (bits 1 w 11) (bits 1 w 10) (bits 10 w 0))
  | 0x21 => need (fld w 11 1 == 0) (.st g d a z (bits 1 w 10) (bits 10 w 0))
  | 0x22 => need (fld w 10 1 == 0 && fld w 4 6 == 0) (.ldAcq g d a z (bits 1 w 11) (bits 4 w 0))
  | 0x23 => need (fld w 10 2 == 0 && fld w 4 6 == 0) (.stRel g d a z (bits 4 w 0))
  | 0x24 =>
    match fld w 0 10 with
    | 0x000 => need (noRegs w) (.mark g)
    | 0x001 => need (noDB w) (.fence g a)
    | 0x010 => need (noRegs w) (.drainPool g)
    | 0x011 => need (noRegs w) (.drainCluster g)
    | 0x012 => need (noRegs w) (.drainHbm g)
    | 0x013 => need (noRegs w) (.drainTier g)
    | _ => none
  | 0x25 =>
    match fld w 0 10 with
    | 0x000 => need (noDB w) (.cwb g a)
    | 0x001 => need (noDB w) (.cinv g a)
    | 0x002 => need (noDB w) (.cflush g a)
    | 0x010 => need (noD w) (.cwbr g a b)
    | 0x011 => need (noD w) (.cinvr g a b)
    | 0x012 => need (noD w) (.cflushr g a b)
    | 0x020 => need (noRegs w) (.l1inv g)
    | _ => none
  | _ => none

/-- Majors 0x28 to 0x2F: atomics, reductions, remote updates, migration (R83 to R92). -/
def decodeAtomic (major w : Nat) : Option Instr :=
  let g := guardOf w
  let d : Reg := bits 4 w 18
  let a : Reg := bits 4 w 14
  let b : Reg := bits 4 w 10
  let l := bits 3 w 5
  let o := bits 2 w 2
  let z := bits 1 w 0
  let sized := fld w 1 1 == 1
  let plain := sized && fld w 4 1 == 0
  let sub := fld w 8 2
  match major with
  | 0x28 => need (plain && sub == 0) (.faa g d a b l o z)
  | 0x29 => need (sized && sub == 0) (.cas g d a b l (bits 1 w 4) o z)
  | 0x2A =>
    match sub with
    | 0 => need plain (.swp g d a b l o z)
    | 1 => need plain (.atomicAnd g d a b l o z)
    | 2 => need plain (.atomicOr g d a b l o z)
    | _ => need plain (.atomicXor g d a b l o z)
  | 0x2B =>
    match sub with
    | 0 => need plain (.atomicMinI g d a b l o z)
    | 1 => need plain (.atomicMaxI g d a b l o z)
    | 2 => need plain (.atomicMinN g d a b l o z)
    | _ => need plain (.atomicMaxN g d a b l o z)
  | 0x2C => need (plain && sub == 0) (.fadda g d a b l o z)
  | 0x2D => need (plain && sub == 0 && noD w) (.redc g a b l o z)
  | 0x2E => need (noD w && fld w 0 6 == 0) (.spawnu g a b (bits 4 w 6))
  | 0x2F =>
    match fld w 0 10 with
    | 0x000 => need (noDB w) (.mig g a)
    | 0x001 => need (noRegs w) (.home g)
    | _ => none
  | _ => none

/-- Majors 0x30 to 0x36: messages, tasks, engine FIFOs, POST, JOB (R95 to R104). -/
def decodeMessage (major w : Nat) : Option Instr :=
  let g := guardOf w
  let d : Reg := bits 4 w 18
  let a : Reg := bits 4 w 14
  let b : Reg := bits 4 w 10
  match major with
  | 0x30 =>
    match fld w 4 6 with
    | 0x00 => need (noD w) (.send g a b (bits 4 w 0))
    | 0x10 => need (noD w) (.mcast g a b (bits 4 w 0))
    | 0x20 => need (noRegs w && fld w 3 1 == 0) (.recv g (bits 3 w 0))
    | 0x30 => need (noAB w && fld w 3 1 == 0) (.bind g d (bits 3 w 0))
    | _ => none
  | 0x31 =>
    match fld w 0 10 with
    | 0x000 => need (noDB w) (.spawn g a)
    | 0x001 => need (noDB w) (.join g a)
    | 0x002 => need (noRegs w) (.taskend g)
    | _ => none
  | 0x34 =>
    match fld w 0 10 with
    | 0x000 => need (noDB w) (.epushCopy g a)
    | 0x001 => need (noDB w) (.epushGather g a)
    | 0x002 => need (noDB w) (.epushColl g a)
    | 0x010 => need (noAB w) (.epopCopy g d)
    | 0x011 => need (noAB w) (.epopGather g d)
    | 0x012 => need (noAB w) (.epopColl g d)
    | _ => none
  | 0x35 => need (noD w && fld w 0 10 == 0) (.post g a b)
  | 0x36 =>
    if noAB w && fld w 4 6 == 0 then
      if fld w 3 1 == 0 then some (.job g d (bits 3 w 0)) else some (.jobRel g d (bits 3 w 0))
    else none
  | _ => none

/-- SYSW by register number: a constructor of its own where the table gives one (R21, R110). -/
def decodeSysw (w : Nat) : Option Instr :=
  let g := guardOf w
  let a : Reg := bits 4 w 14
  let r := fld w 0 10
  if !noDB w then none
  else if r == 0 then some (.syswWp g a)
  else if r == 4 then some (.syswSpace g a)
  else if r == 8 then some (.syswBndW g a)
  else if r == 9 then some (.syswBndS g a)
  else if r == 10 then some (.syswBndL g a)
  else if r / 4 == 4 then some (.syswWin g a (bits 2 w 0))
  else if r / 8 == 4 && r != 0x27 then some (.syswHmask g a (bits 3 w 0))
  else if r == 0x30 then some (.syswSlotmap g a)
  else if r / 32 == 2 then
    if r % 2 == 0 then some (.syswDomtabB g a (bits 4 w 1)) else some (.syswDomtabL g a (bits 4 w 1))
  else some (.sysw g a (bits 10 w 0))

/-- Majors 0x38 to 0x3E: the switch tier, DOTM, the system instructions (R105 to R110). -/
def decodeSystem (major w : Nat) : Option Instr :=
  let g := guardOf w
  let d : Reg := bits 4 w 18
  let a : Reg := bits 4 w 14
  let b : Reg := bits 4 w 10
  match major with
  | 0x38 =>
    match fld w 0 10 with
    | 0 => some (.salloc g d a b)
    | 1 => some (.sallocMir g d a b)
    | _ => none
  | 0x39 => need (noDB w && fld w 0 10 == 0) (.sfree g a)
  | 0x3A =>
    match fld w 0 10 with
    | 0 => need (noB w) (.sinfoSize g d a)
    | 1 => need (noB w) (.sinfoHealth g d a)
    | 2 => need (noB w) (.sinfoQuota g d a)
    | 3 => need (noB w) (.sinfoInc g d a)
    | _ => none
  | 0x3B => need (noB w && fld w 2 8 == 0) (.dotm g d a (bits 2 w 0))
  | 0x3C =>
    match fld w 0 10 with
    | 0x000 => need (noRegs w) (.eret g)
    | 0x001 => need (noD w) (.xinv g a b)
    | 0x002 => need (noRegs w) (.snap g)
    | 0x003 => need (noRegs w) (.bkpt g)
    | _ => need (noRegs w && fld w 8 2 == 1) (.trap g (bits 8 w 0))
  | 0x3D => need (noAB w) (.sysr g d (bits 10 w 0))
  | 0x3E => decodeSysw w
  | _ => none

/-- A 32-bit thread word by its major (Table 6 of R27), reserved sub-field codes aside. -/
def decodeRaw (w : Nat) : Option Instr :=
  let m := fld w 26 6
  if m ≤ 0x04 then decodeArith m w
  else if m ≤ 0x0F then decodeImmediate m w
  else if m ≤ 0x13 then decodePredicate m w
  else if m ≤ 0x16 then decodeFloat m w
  else if m ≤ 0x19 then decodeLane m w
  else if m ≤ 0x1E then decodeControl m w
  else if m ≤ 0x25 then decodeMemory m w
  else if m ≤ 0x2F then decodeAtomic m w
  else if m ≤ 0x36 then decodeMessage m w
  else decodeSystem m w

/-- Keeps the legal terms. -/
def legal (i : Option Instr) : Option Instr :=
  match i with
  | some i => if i.wf then some i else none
  | none => none

/-- A 32-bit thread word (R22 to R27). A prefix word alone is no instruction. -/
def decodeThread (w : Nat) : Option Instr := legal (decodeRaw w)

/-- Whether a thread word is a legal prefix word: major 0x3F with [25:18] zero (R22). -/
def isPrefix (w : Nat) : Bool := fld w 26 6 == 0x3F && fld w 18 8 == 0

/-- The 32-bit immediate of a pair (R26). -/
def pairImm (p w : Nat) : BitVec 32 := BitVec.ofNat 32 (fld p 0 18 * 2 ^ 14 + fld w 0 14)

/-- A prefix word p and the word w after it (R26). -/
def decodePair (p w : Nat) : Option Instr :=
  let g := guardOf w
  let d : Reg := bits 4 w 18
  let a : Reg := bits 4 w 14
  let i := pairImm p w
  if isPrefix p then
    match fld w 26 6 with
    | 0x08 => some (.addiLong g d a i)
    | 0x09 => some (.andiLong g d a i)
    | 0x0A => some (.oriLong g d a i)
    | 0x0B => some (.xoriLong g d a i)
    | 0x0D => need (fld w 14 4 == 0) (.moviLong g d i)
    | 0x0E => need (fld w 14 4 == 0) (.inshiLong g d i)
    | 0x0F => some (.muliLong g d a i)
    | _ => none
  else none

/-- The common words of a stream (Table 10 of R29), by op and modifiers. -/
def decodeCommon (op m w : Nat) : Option Instr :=
  match op with
  | 0x00 => need (m == 0) .dup
  | 0x01 => need (m == 0) .drop
  | 0x02 => need (m == 0) .swap
  | 0x03 => need (m == 0) .over
  | 0x04 => need (m == 0) .adds
  | 0x05 => need (m == 0) .subs
  | 0x06 => some (.shls (bits 2 w 6) (bits 6 w 0))
  | 0x07 => need (m == 0) .atW
  | 0x08 => need (m == 0) .dt
  | 0x09 => need (m == 0) .rdv
  | 0x0A => if m == 0 then some .loopW else need (m == 1) .loopReg
  | 0x0B => need (m == 0) .endl
  | 0x0C => need (m == 0) .ppt
  | 0x0D => need (m == 0) .haltj
  | 0x0E => some (.setf (bits 8 w 0))
  | 0x0F => need (m == 0) .nopw
  | _ => none

/-- SEQ words (Table 11 of R29). -/
def decodeSeq (op m w : Nat) : Option Instr :=
  match op with
  | 0x10 => need (m == 0) .fmt
  | 0x11 => need (m == 0) .ctab
  | 0x12 => if m == 0 then some .tsclW else need (m == 1) .tsclA
  | 0x13 => need (m == 0) .oasis
  | 0x14 => need (m / 8 == 0) (.take (bits 3 w 0))
  | 0x15 => need (m == 0) .segt
  | 0x16 => need (m / 16 == 0) (.await (bits 4 w 0))
  | 0x17 => if m == 0 then some .manc else need (m == 1) .mancOff
  | 0x18 => need (m == 0) .selk
  | 0x19 => need (m == 0) .shape
  | 0x1A => need (m == 0) .rdpcc
  | _ => none

/-- LDE words. -/
def decodeLde (op m w : Nat) : Option Instr :=
  match op with
  | 0x10 => need (m / 16 == 0) (.ldw (bits 4 w 0))
  | 0x11 => need (m / 16 == 0) (.lda (bits 4 w 0))
  | 0x12 => need (m / 16 == 0) (.lds (bits 4 w 0))
  | 0x13 => need (m / 2 == 0) (.pfw (bits 1 w 0))
  | 0x14 => need (m / 2 == 0) (.pfa (bits 1 w 0))
  | 0x15 => need (m / 16 == 0) (.tfw (bits 4 w 0))
  | 0x16 => need (m / 16 == 0) (.tfa (bits 4 w 0))
  | 0x17 => need (m / 16 == 0) (.gta (bits 4 w 0))
  | _ => none

/-- MXE words. -/
def decodeMxe (op m w : Nat) : Option Instr :=
  match op with
  | 0x10 => some (.mma (bits 5 w 3) (bits 1 w 2) (bits 1 w 1) (bits 1 w 0))
  | 0x11 => some (.mmaz (bits 5 w 3) (bits 1 w 2) (bits 1 w 1) (bits 1 w 0))
  | 0x12 => need (m % 8 == 0) (.dwa (bits 5 w 3))
  | 0x13 => need (m % 8 == 0) (.dwaz (bits 5 w 3))
  | _ => none

/-- VXE words. -/
def decodeVxe (op m w : Nat) : Option Instr :=
  let s := bits 5 w 3
  match op with
  | 0x10 => need (m % 8 == 0) (.vadd s)
  | 0x11 => need (m % 8 == 0) (.vsub s)
  | 0x12 => need (m % 8 == 0) (.vmul s)
  | 0x13 => need (m % 8 == 0) (.vfma s)
  | 0x14 => need (m % 8 == 0) (.vmax s)
  | 0x15 => need (m % 8 == 0) (.vmin s)
  | 0x16 => need (m % 8 == 0) (.vabs s)
  | 0x17 => need (m % 8 == 0) (.vexp s)
  | 0x18 => need (m % 8 == 0) (.vrcp s)
  | 0x19 => need (m % 8 == 0) (.vrsq s)
  | 0x1A => need (m % 8 == 0) (.vsel s)
  | 0x1B => some (.vcmp s (bits 3 w 0))
  | 0x1C => some (.vred s (bits 3 w 0))
  | 0x1D => some (.vcvt s (bits 3 w 0))
  | 0x1E => need (m / 2 % 4 == 0) (.vres s (bits 1 w 0))
  | 0x1F => some (.vcmpu s (bits 3 w 0))
  | 0x20 => need (m / 2 % 4 == 0) (.vrq s (bits 1 w 0))
  | 0x21 => need (m % 8 == 0) (.vmov s)
  | _ => none

/-- CPE words. -/
def decodeCpe (op m w : Nat) : Option Instr :=
  let s := bits 5 w 3
  match op with
  | 0x10 => need (m == 0) .cpaa
  | 0x11 => need (m == 0) .cpah
  | 0x12 => need (m / 2 % 4 == 0) (.cprs s (bits 1 w 0))
  | 0x13 => need (m / 2 % 4 == 0) (.cprh s (bits 1 w 0))
  | 0x14 => need (m % 8 == 0) (.topr s)
  | 0x15 => need (m % 8 == 0) (.topc s)
  | 0x16 => need (m == 0) .spill
  | 0x17 => need (m / 16 == 0) (.fillc (bits 4 w 0))
  | _ => none

/-- A stream word by its pattern (R29), reserved codes aside. -/
def decodeStreamRaw (e : Engine) (w : Nat) : Option Instr :=
  if fld w 15 1 == 0 then some (.lit (bits 15 w 0))
  else if fld w 14 1 == 0 then some (.ext (bits 14 w 0))
  else
    let op := fld w 8 6
    let m := fld w 0 8
    if op ≤ 0x0F then decodeCommon op m w
    else match e with
      | .seq => decodeSeq op m w
      | .lde => decodeLde op m w
      | .mxe => decodeMxe op m w
      | .vxe => decodeVxe op m w
      | .cpe => decodeCpe op m w

/-- A stream word, decoded with its own engine's table (R29, R30). -/
def decodeStream (e : Engine) (w : Nat) : Option Instr := legal (decodeStreamRaw e w)

/-- The number that little-endian bytes hold (R10), for instruction words. -/
def wordOf : List Byte → Nat
  | [] => 0
  | b :: bs => b.toNat + 256 * wordOf bs

/-- An instruction of thread code from the bytes at its address: the instruction and its length in bytes. -/
def decodeCode (bs : List Byte) : Except Reject (Instr × Nat) :=
  let w := wordOf (bs.take 4)
  if bs.length < 4 then .error .truncated
  else if fld w 26 6 == 0x3F then
    if bs.length < 8 then .error .truncated
    else
      match decodePair w (wordOf ((bs.drop 4).take 4)) with
      | some i => .ok (i, 8)
      | none => .error .badPair
  else
    match decodeThread w with
    | some i => .ok (i, 4)
    | none => .error .illegalInstruction

/-- The engine that the table's 16-bit words are tried with first, and the others after it. [log 8] -/
def tableEngines : List Engine := [.vxe, .seq, .lde, .mxe, .cpe]

/-- The first engine whose table gives a word a meaning. -/
def firstEngine (w : Nat) : List Engine → Option (Engine × Instr)
  | [] => none
  | e :: es =>
    match decodeStream e w with
    | some i => some (e, i)
    | none => firstEngine w es

/-- The instruction that the decoder reads from a word numbered as the opcode table numbers its bits. -/
def decodeTableWord (nbits w : Nat) : Option Instr :=
  if nbits == 16 then (firstEngine (w % 2 ^ 16) tableEngines).map Prod.snd
  else if nbits == 32 then decodeThread (w % 2 ^ 32)
  else if nbits == 64 then
    match decodeCode (List.ofFn fun k : Fin 8 => BitVec.ofNat 8 (w / 256 ^ k.val)) with
    | .ok (i, _) => some i
    | .error _ => none
  else none

/-! ## The encoder -/

/-- The guard's bits [25:22] (Table 4 of R22). -/
def Guard.word (g : Guard) : Nat := g.gs.toNat * 2 ^ 25 + g.gp.toNat * 2 ^ 22

/-- A register in [21:18], [17:14] or [13:10] (layout RR of R22). -/
def rD (d : Reg) : Nat := d.toNat * 2 ^ 18

/-- ra. -/
def rA (a : Reg) : Nat := a.toNat * 2 ^ 14

/-- rb. -/
def rB (b : Reg) : Nat := b.toNat * 2 ^ 10

/-- The fields of an atomic (R27). -/
def atomicBits (l : BitVec 3) (o : BitVec 2) (z : BitVec 1) : Nat := l.toNat * 2 ^ 5 + o.toNat * 2 ^ 2 + 2 + z.toNat

/-- The 32-bit word of a thread instruction (Tables 4 to 7 of R22 and R27); 0 for what has none. -/
def encodeThread : Instr → Nat
  | .add g d a b => 0x04000000 + g.word + rD d + rA a + rB b
  | .sub g d a b => 0x04000001 + g.word + rD d + rA a + rB b
  | .mul g d a b => 0x04000002 + g.word + rD d + rA a + rB b
  | .mulhI64 g d a b => 0x04000003 + g.word + rD d + rA a + rB b
  | .mulhN64 g d a b => 0x04000004 + g.word + rD d + rA a + rB b
  | .divI64 g d a b => 0x04000005 + g.word + rD d + rA a + rB b
  | .divN64 g d a b => 0x04000006 + g.word + rD d + rA a + rB b
  | .remI64 g d a b => 0x04000007 + g.word + rD d + rA a + rB b
  | .remN64 g d a b => 0x04000008 + g.word + rD d + rA a + rB b
  | .addsatI64 g d a b => 0x04000009 + g.word + rD d + rA a + rB b
  | .subsatI64 g d a b => 0x0400000A + g.word + rD d + rA a + rB b
  | .abs g d a => 0x0400000B + g.word + rD d + rA a
  | .neg g d a => 0x0400000C + g.word + rD d + rA a
  | .and g d a b => 0x08000000 + g.word + rD d + rA a + rB b
  | .or g d a b => 0x08000001 + g.word + rD d + rA a + rB b
  | .xor g d a b => 0x08000002 + g.word + rD d + rA a + rB b
  | .andn g d a b => 0x08000003 + g.word + rD d + rA a + rB b
  | .orn g d a b => 0x08000004 + g.word + rD d + rA a + rB b
  | .xnor g d a b => 0x08000005 + g.word + rD d + rA a + rB b
  | .shl g d a b => 0x08000006 + g.word + rD d + rA a + rB b
  | .shr g d a b => 0x08000007 + g.word + rD d + rA a + rB b
  | .sar g d a b => 0x08000008 + g.word + rD d + rA a + rB b
  | .rol g d a b => 0x08000009 + g.word + rD d + rA a + rB b
  | .ror g d a b => 0x0800000A + g.word + rD d + rA a + rB b
  | .clz g d a => 0x0800000B + g.word + rD d + rA a
  | .ctz g d a => 0x0800000C + g.word + rD d + rA a
  | .popc g d a => 0x0800000D + g.word + rD d + rA a
  | .brev g d a => 0x0800000E + g.word + rD d + rA a
  | .bswap g d a => 0x0800000F + g.word + rD d + rA a
  | .minI64 g d a b => 0x0C000000 + g.word + rD d + rA a + rB b
  | .maxI64 g d a b => 0x0C000001 + g.word + rD d + rA a + rB b
  | .minN64 g d a b => 0x0C000002 + g.word + rD d + rA a + rB b
  | .maxN64 g d a b => 0x0C000003 + g.word + rD d + rA a + rB b
  | .sextI8 g d a => 0x0C000004 + g.word + rD d + rA a
  | .sextI16 g d a => 0x0C000005 + g.word + rD d + rA a
  | .sextI32 g d a => 0x0C000006 + g.word + rD d + rA a
  | .zextN8 g d a => 0x0C000007 + g.word + rD d + rA a
  | .zextN16 g d a => 0x0C000008 + g.word + rD d + rA a
  | .zextN32 g d a => 0x0C000009 + g.word + rD d + rA a
  | .mov g d a => 0x0C00000A + g.word + rD d + rA a
  | .sel g d a b k => 0x0C000010 + g.word + rD d + rA a + rB b + k.toNat
  | .lea g d a b k => 0x10000000 + g.word + rD d + rA a + rB b + k.toNat
  | .addi g d a i => 0x20000000 + g.word + rD d + rA a + i.toNat
  | .andi g d a i => 0x24000000 + g.word + rD d + rA a + i.toNat
  | .ori g d a i => 0x28000000 + g.word + rD d + rA a + i.toNat
  | .xori g d a i => 0x2C000000 + g.word + rD d + rA a + i.toNat
  | .movi g d i => 0x34000000 + g.word + rD d + i.toNat
  | .inshi g d i => 0x38000000 + g.word + rD d + i.toNat
  | .muli g d a i => 0x3C000000 + g.word + rD d + rA a + i.toNat
  | .shli g d a n => 0x30000000 + g.word + rD d + rA a + n.toNat
  | .shri g d a n => 0x30001000 + g.word + rD d + rA a + n.toNat
  | .sari g d a n => 0x30002000 + g.word + rD d + rA a + n.toNat
  | .rori g d a n => 0x30003000 + g.word + rD d + rA a + n.toNat
  | .cmp g e a b w c => 0x40000000 + g.word + e.toNat * 2 ^ 18 + rA a + rB b + w.toNat * 2 ^ 4 + c.toNat
  | .cmpi g e a c i => 0x44000000 + g.word + e.toNat * 2 ^ 18 + rA a + c.toNat * 2 ^ 10 + i.toNat
  | .pand g e f h => 0x48000000 + g.word + e.toNat * 2 ^ 18 + f.toNat * 2 ^ 14 + h.toNat * 2 ^ 10
  | .por g e f h => 0x48000001 + g.word + e.toNat * 2 ^ 18 + f.toNat * 2 ^ 14 + h.toNat * 2 ^ 10
  | .pxor g e f h => 0x48000002 + g.word + e.toNat * 2 ^ 18 + f.toNat * 2 ^ 14 + h.toNat * 2 ^ 10
  | .pandn g e f h => 0x48000003 + g.word + e.toNat * 2 ^ 18 + f.toNat * 2 ^ 14 + h.toNat * 2 ^ 10
  | .pnot g e f => 0x48000004 + g.word + e.toNat * 2 ^ 18 + f.toNat * 2 ^ 14
  | .rdp g d => 0x48000005 + g.word + rD d
  | .wrp g a => 0x48000006 + g.word + rA a
  | .fcmp g e a b t c => 0x4C000000 + g.word + e.toNat * 2 ^ 18 + rA a + rB b + t.toNat * 2 ^ 3 + c.toNat
  | .faddF64 g d a b r => 0x50000000 + g.word + rD d + rA a + rB b + r.toNat * 2 ^ 8
  | .fsubF64 g d a b r => 0x50000001 + g.word + rD d + rA a + rB b + r.toNat * 2 ^ 8
  | .fmulF64 g d a b r => 0x50000002 + g.word + rD d + rA a + rB b + r.toNat * 2 ^ 8
  | .fdivF64 g d a b r => 0x50000003 + g.word + rD d + rA a + rB b + r.toNat * 2 ^ 8
  | .fsqrtF64 g d a r => 0x50000004 + g.word + rD d + rA a + r.toNat * 2 ^ 8
  | .fmaF64 g d a b r => 0x50000005 + g.word + rD d + rA a + rB b + r.toNat * 2 ^ 8
  | .fminF64 g d a b => 0x50000006 + g.word + rD d + rA a + rB b
  | .fmaxF64 g d a b => 0x50000007 + g.word + rD d + rA a + rB b
  | .fabsF64 g d a => 0x50000008 + g.word + rD d + rA a
  | .fnegF64 g d a => 0x50000009 + g.word + rD d + rA a
  | .faddF32 g d a b r => 0x54000000 + g.word + rD d + rA a + rB b + r.toNat * 2 ^ 8
  | .fsubF32 g d a b r => 0x54000001 + g.word + rD d + rA a + rB b + r.toNat * 2 ^ 8
  | .fmulF32 g d a b r => 0x54000002 + g.word + rD d + rA a + rB b + r.toNat * 2 ^ 8
  | .fdivF32 g d a b r => 0x54000003 + g.word + rD d + rA a + rB b + r.toNat * 2 ^ 8
  | .fsqrtF32 g d a r => 0x54000004 + g.word + rD d + rA a + r.toNat * 2 ^ 8
  | .fmaF32 g d a b r => 0x54000005 + g.word + rD d + rA a + rB b + r.toNat * 2 ^ 8
  | .fminF32 g d a b => 0x54000006 + g.word + rD d + rA a + rB b
  | .fmaxF32 g d a b => 0x54000007 + g.word + rD d + rA a + rB b
  | .fabsF32 g d a => 0x54000008 + g.word + rD d + rA a
  | .fnegF32 g d a => 0x54000009 + g.word + rD d + rA a
  | .cvt g d a r s t => 0x58000000 + g.word + rD d + rA a + r.toNat * 2 ^ 8 + s.toNat * 2 ^ 4 + t.toNat
  | .lnadd g d a b t => 0x60000000 + g.word + rD d + rA a + rB b + t.toNat
  | .lnsub g d a b t => 0x60000010 + g.word + rD d + rA a + rB b + t.toNat
  | .lnmul g d a b t => 0x60000020 + g.word + rD d + rA a + rB b + t.toNat
  | .lnmin g d a b t => 0x60000030 + g.word + rD d + rA a + rB b + t.toNat
  | .lnmax g d a b t => 0x60000040 + g.word + rD d + rA a + rB b + t.toNat
  | .lnand g d a b t => 0x60000050 + g.word + rD d + rA a + rB b + t.toNat
  | .lnor g d a b t => 0x60000060 + g.word + rD d + rA a + rB b + t.toNat
  | .lnxor g d a b t => 0x60000070 + g.word + rD d + rA a + rB b + t.toNat
  | .lnfma g d a b t => 0x60000080 + g.word + rD d + rA a + rB b + t.toNat
  | .lncpy g d a t => 0x60000090 + g.word + rD d + rA a + t.toNat
  | .lnsum g d a t => 0x64000000 + g.word + rD d + rA a + t.toNat
  | .lndot g d a b t => 0x64000010 + g.word + rD d + rA a + rB b + t.toNat
  | .br g h d => 0x70000000 + g.word + h.toNat * 2 ^ 20 + d.toNat
  | .call g d => 0x74000000 + g.word + d.toNat
  | .ret g => 0x78000000 + g.word
  | .jmpi g a => 0x78000001 + g.word + rA a
  | .calli g a => 0x78000002 + g.word + rA a
  | .follow g a => 0x78000010 + g.word + rA a
  | .detach g => 0x78000011 + g.word
  | .rejoin g => 0x78000012 + g.word
  | .waitcPcc g a k => 0x78000020 + g.word + rA a + k.toNat
  | .waitcWcc g a => 0x78000028 + g.word + rA a
  | .rdcycPcc g d k => 0x78000030 + g.word + rD d + k.toNat
  | .rdcycWcc g d => 0x78000038 + g.word + rD d
  | .halt g => 0x78000040 + g.word
  | .haltRetain g a => 0x78000041 + g.word + rA a
  | .yield g => 0x78000050 + g.word
  | .ld g d a z x i o => 0x80000000 + g.word + rD d + rA a + z.toNat * 2 ^ 12 + x.toNat * 2 ^ 11 + i.toNat * 2 ^ 10 + o.toNat
  | .st g d a z i o => 0x84000000 + g.word + rD d + rA a + z.toNat * 2 ^ 12 + i.toNat * 2 ^ 10 + o.toNat
  | .ldAcq g d a z x s => 0x88000000 + g.word + rD d + rA a + z.toNat * 2 ^ 12 + x.toNat * 2 ^ 11 + s.toNat
  | .stRel g d a z s => 0x8C000000 + g.word + rD d + rA a + z.toNat * 2 ^ 12 + s.toNat
  | .mark g => 0x90000000 + g.word
  | .fence g a => 0x90000001 + g.word + rA a
  | .drainPool g => 0x90000010 + g.word
  | .drainCluster g => 0x90000011 + g.word
  | .drainHbm g => 0x90000012 + g.word
  | .drainTier g => 0x90000013 + g.word
  | .cwb g a => 0x94000000 + g.word + rA a
  | .cinv g a => 0x94000001 + g.word + rA a
  | .cflush g a => 0x94000002 + g.word + rA a
  | .cwbr g a b => 0x94000010 + g.word + rA a + rB b
  | .cinvr g a b => 0x94000011 + g.word + rA a + rB b
  | .cflushr g a b => 0x94000012 + g.word + rA a + rB b
  | .l1inv g => 0x94000020 + g.word
  | .faa g d a b l o z => 0xA0000000 + g.word + rD d + rA a + rB b + atomicBits l o z
  | .cas g d a b l f o z => 0xA4000000 + g.word + rD d + rA a + rB b + atomicBits l o z + f.toNat * 2 ^ 4
  | .swp g d a b l o z => 0xA8000000 + g.word + rD d + rA a + rB b + atomicBits l o z
  | .atomicAnd g d a b l o z => 0xA8000100 + g.word + rD d + rA a + rB b + atomicBits l o z
  | .atomicOr g d a b l o z => 0xA8000200 + g.word + rD d + rA a + rB b + atomicBits l o z
  | .atomicXor g d a b l o z => 0xA8000300 + g.word + rD d + rA a + rB b + atomicBits l o z
  | .atomicMinI g d a b l o z => 0xAC000000 + g.word + rD d + rA a + rB b + atomicBits l o z
  | .atomicMaxI g d a b l o z => 0xAC000100 + g.word + rD d + rA a + rB b + atomicBits l o z
  | .atomicMinN g d a b l o z => 0xAC000200 + g.word + rD d + rA a + rB b + atomicBits l o z
  | .atomicMaxN g d a b l o z => 0xAC000300 + g.word + rD d + rA a + rB b + atomicBits l o z
  | .fadda g d a b l o z => 0xB0000000 + g.word + rD d + rA a + rB b + atomicBits l o z
  | .redc g a b l o z => 0xB4000000 + g.word + rA a + rB b + atomicBits l o z
  | .spawnu g a b k => 0xB8000000 + g.word + rA a + rB b + k.toNat * 2 ^ 6
  | .mig g a => 0xBC000000 + g.word + rA a
  | .home g => 0xBC000001 + g.word
  | .send g a b n => 0xC0000000 + g.word + rA a + rB b + n.toNat
  | .mcast g a b n => 0xC0000100 + g.word + rA a + rB b + n.toNat
  | .recv g c => 0xC0000200 + g.word + c.toNat
  | .bind g d c => 0xC0000300 + g.word + rD d + c.toNat
  | .spawn g a => 0xC4000000 + g.word + rA a
  | .join g a => 0xC4000001 + g.word + rA a
  | .taskend g => 0xC4000002 + g.word
  | .epushCopy g a => 0xD0000000 + g.word + rA a
  | .epushGather g a => 0xD0000001 + g.word + rA a
  | .epushColl g a => 0xD0000002 + g.word + rA a
  | .epopCopy g d => 0xD0000010 + g.word + rD d
  | .epopGather g d => 0xD0000011 + g.word + rD d
  | .epopColl g d => 0xD0000012 + g.word + rD d
  | .post g a b => 0xD4000000 + g.word + rA a + rB b
  | .job g d k => 0xD8000000 + g.word + rD d + k.toNat
  | .jobRel g d k => 0xD8000008 + g.word + rD d + k.toNat
  | .salloc g d a b => 0xE0000000 + g.word + rD d + rA a + rB b
  | .sallocMir g d a b => 0xE0000001 + g.word + rD d + rA a + rB b
  | .sfree g a => 0xE4000000 + g.word + rA a
  | .sinfoSize g d a => 0xE8000000 + g.word + rD d + rA a
  | .sinfoHealth g d a => 0xE8000001 + g.word + rD d + rA a
  | .sinfoQuota g d a => 0xE8000002 + g.word + rD d + rA a
  | .sinfoInc g d a => 0xE8000003 + g.word + rD d + rA a
  | .dotm g d a t => 0xEC000000 + g.word + rD d + rA a + t.toNat
  | .eret g => 0xF0000000 + g.word
  | .xinv g a b => 0xF0000001 + g.word + rA a + rB b
  | .snap g => 0xF0000002 + g.word
  | .bkpt g => 0xF0000003 + g.word
  | .trap g n => 0xF0000100 + g.word + n.toNat
  | .sysr g d r => 0xF4000000 + g.word + rD d + r.toNat
  | .sysw g a r => 0xF8000000 + g.word + rA a + r.toNat
  | .syswWp g a => 0xF8000000 + g.word + rA a
  | .syswSpace g a => 0xF8000004 + g.word + rA a
  | .syswBndW g a => 0xF8000008 + g.word + rA a
  | .syswBndS g a => 0xF8000009 + g.word + rA a
  | .syswBndL g a => 0xF800000A + g.word + rA a
  | .syswWin g a w => 0xF8000010 + g.word + rA a + w.toNat
  | .syswHmask g a h => 0xF8000020 + g.word + rA a + h.toNat
  | .syswSlotmap g a => 0xF8000030 + g.word + rA a
  | .syswDomtabB g a k => 0xF8000040 + g.word + rA a + k.toNat * 2 ^ 1
  | .syswDomtabL g a k => 0xF8000041 + g.word + rA a + k.toNat * 2 ^ 1
  | _ => 0

/-- The prefix word that carries the upper bits of a 32-bit immediate (R26). -/
def prefixWord (i : BitVec 32) : Nat := 0xFC000000 + i.toNat / 2 ^ 14

/-- The two words of a pair (R26); 0 and 0 for what has none. -/
def encodePair : Instr → Nat × Nat
  | .addiLong g d a i => (prefixWord i, 0x20000000 + g.word + rD d + rA a + i.toNat % 2 ^ 14)
  | .andiLong g d a i => (prefixWord i, 0x24000000 + g.word + rD d + rA a + i.toNat % 2 ^ 14)
  | .oriLong g d a i => (prefixWord i, 0x28000000 + g.word + rD d + rA a + i.toNat % 2 ^ 14)
  | .xoriLong g d a i => (prefixWord i, 0x2C000000 + g.word + rD d + rA a + i.toNat % 2 ^ 14)
  | .moviLong g d i => (prefixWord i, 0x34000000 + g.word + rD d + i.toNat % 2 ^ 14)
  | .inshiLong g d i => (prefixWord i, 0x38000000 + g.word + rD d + i.toNat % 2 ^ 14)
  | .muliLong g d a i => (prefixWord i, 0x3C000000 + g.word + rD d + rA a + i.toNat % 2 ^ 14)
  | _ => (0, 0)

/-- The 16-bit word of a stream instruction (R29, Tables 10 and 11); 0 for what has none. -/
def encodeStream : Instr → Nat
  | .lit v => 0x0000 + v.toNat
  | .ext v => 0x8000 + v.toNat
  | .dup => 0xC000
  | .drop => 0xC100
  | .swap => 0xC200
  | .over => 0xC300
  | .adds => 0xC400
  | .subs => 0xC500
  | .shls k n => 0xC600 + k.toNat * 2 ^ 6 + n.toNat
  | .atW => 0xC700
  | .dt => 0xC800
  | .rdv => 0xC900
  | .loopW => 0xCA00
  | .loopReg => 0xCA01
  | .endl => 0xCB00
  | .ppt => 0xCC00
  | .haltj => 0xCD00
  | .setf n => 0xCE00 + n.toNat
  | .nopw => 0xCF00
  | .fmt => 0xD000
  | .ctab => 0xD100
  | .tsclW => 0xD200
  | .tsclA => 0xD201
  | .oasis => 0xD300
  | .take e => 0xD400 + e.toNat
  | .segt => 0xD500
  | .await n => 0xD600 + n.toNat
  | .manc => 0xD700
  | .mancOff => 0xD701
  | .selk => 0xD800
  | .shape => 0xD900
  | .rdpcc => 0xDA00
  | .ldw n => 0xD000 + n.toNat
  | .lda n => 0xD100 + n.toNat
  | .lds n => 0xD200 + n.toNat
  | .pfw f => 0xD300 + f.toNat
  | .pfa f => 0xD400 + f.toNat
  | .tfw n => 0xD500 + n.toNat
  | .tfa n => 0xD600 + n.toNat
  | .gta n => 0xD700 + n.toNat
  | .mma s r w a => 0xD000 + s.toNat * 2 ^ 3 + r.toNat * 2 ^ 2 + w.toNat * 2 ^ 1 + a.toNat
  | .mmaz s r w a => 0xD100 + s.toNat * 2 ^ 3 + r.toNat * 2 ^ 2 + w.toNat * 2 ^ 1 + a.toNat
  | .dwa s => 0xD200 + s.toNat * 2 ^ 3
  | .dwaz s => 0xD300 + s.toNat * 2 ^ 3
  | .vadd s => 0xD000 + s.toNat * 2 ^ 3
  | .vsub s => 0xD100 + s.toNat * 2 ^ 3
  | .vmul s => 0xD200 + s.toNat * 2 ^ 3
  | .vfma s => 0xD300 + s.toNat * 2 ^ 3
  | .vmax s => 0xD400 + s.toNat * 2 ^ 3
  | .vmin s => 0xD500 + s.toNat * 2 ^ 3
  | .vabs s => 0xD600 + s.toNat * 2 ^ 3
  | .vexp s => 0xD700 + s.toNat * 2 ^ 3
  | .vrcp s => 0xD800 + s.toNat * 2 ^ 3
  | .vrsq s => 0xD900 + s.toNat * 2 ^ 3
  | .vsel s => 0xDA00 + s.toNat * 2 ^ 3
  | .vcmp s c => 0xDB00 + s.toNat * 2 ^ 3 + c.toNat
  | .vred s o => 0xDC00 + s.toNat * 2 ^ 3 + o.toNat
  | .vcvt d s => 0xDD00 + d.toNat * 2 ^ 3 + s.toNat
  | .vres s i => 0xDE00 + s.toNat * 2 ^ 3 + i.toNat
  | .vcmpu s c => 0xDF00 + s.toNat * 2 ^ 3 + c.toNat
  | .vrq s i => 0xE000 + s.toNat * 2 ^ 3 + i.toNat
  | .vmov s => 0xE100 + s.toNat * 2 ^ 3
  | .cpaa => 0xD000
  | .cpah => 0xD100
  | .cprs s i => 0xD200 + s.toNat * 2 ^ 3 + i.toNat
  | .cprh s i => 0xD300 + s.toNat * 2 ^ 3 + i.toNat
  | .topr s => 0xD400 + s.toNat * 2 ^ 3
  | .topc s => 0xD500 + s.toNat * 2 ^ 3
  | .spill => 0xD600
  | .fillc n => 0xD700 + n.toNat
  | _ => 0

/-- Whether an instruction is a 32-bit thread word. -/
def Instr.isThread : Instr → Bool
  | .add _ _ _ _ | .sub _ _ _ _ | .mul _ _ _ _ | .mulhI64 _ _ _ _ | .mulhN64 _ _ _ _ | .divI64 _ _ _ _
  | .divN64 _ _ _ _ | .remI64 _ _ _ _ | .remN64 _ _ _ _ | .addsatI64 _ _ _ _ | .subsatI64 _ _ _ _
  | .abs _ _ _ | .neg _ _ _ | .and _ _ _ _ | .or _ _ _ _ | .xor _ _ _ _ | .andn _ _ _ _ | .orn _ _ _ _
  | .xnor _ _ _ _ | .shl _ _ _ _ | .shr _ _ _ _ | .sar _ _ _ _ | .rol _ _ _ _ | .ror _ _ _ _ | .clz _ _ _
  | .ctz _ _ _ | .popc _ _ _ | .brev _ _ _ | .bswap _ _ _ | .minI64 _ _ _ _ | .maxI64 _ _ _ _
  | .minN64 _ _ _ _ | .maxN64 _ _ _ _ | .sextI8 _ _ _ | .sextI16 _ _ _ | .sextI32 _ _ _ | .zextN8 _ _ _
  | .zextN16 _ _ _ | .zextN32 _ _ _ | .mov _ _ _ | .sel _ _ _ _ _ | .lea _ _ _ _ _ | .addi _ _ _ _
  | .andi _ _ _ _ | .ori _ _ _ _ | .xori _ _ _ _ | .movi _ _ _ | .inshi _ _ _ | .muli _ _ _ _ | .shli _ _ _ _
  | .shri _ _ _ _ | .sari _ _ _ _ | .rori _ _ _ _ | .cmp _ _ _ _ _ _ | .cmpi _ _ _ _ _ | .pand _ _ _ _
  | .por _ _ _ _ | .pxor _ _ _ _ | .pandn _ _ _ _ | .pnot _ _ _ | .rdp _ _ | .wrp _ _ | .fcmp _ _ _ _ _ _
  | .faddF64 _ _ _ _ _ | .fsubF64 _ _ _ _ _ | .fmulF64 _ _ _ _ _ | .fdivF64 _ _ _ _ _ | .fsqrtF64 _ _ _ _
  | .fmaF64 _ _ _ _ _ | .fminF64 _ _ _ _ | .fmaxF64 _ _ _ _ | .fabsF64 _ _ _ | .fnegF64 _ _ _
  | .faddF32 _ _ _ _ _ | .fsubF32 _ _ _ _ _ | .fmulF32 _ _ _ _ _ | .fdivF32 _ _ _ _ _ | .fsqrtF32 _ _ _ _
  | .fmaF32 _ _ _ _ _ | .fminF32 _ _ _ _ | .fmaxF32 _ _ _ _ | .fabsF32 _ _ _ | .fnegF32 _ _ _
  | .cvt _ _ _ _ _ _ | .lnadd _ _ _ _ _ | .lnsub _ _ _ _ _ | .lnmul _ _ _ _ _ | .lnmin _ _ _ _ _
  | .lnmax _ _ _ _ _ | .lnand _ _ _ _ _ | .lnor _ _ _ _ _ | .lnxor _ _ _ _ _ | .lnfma _ _ _ _ _
  | .lncpy _ _ _ _ | .lnsum _ _ _ _ | .lndot _ _ _ _ _ | .br _ _ _ | .call _ _ | .ret _ | .jmpi _ _
  | .calli _ _ | .follow _ _ | .detach _ | .rejoin _ | .waitcPcc _ _ _ | .waitcWcc _ _ | .rdcycPcc _ _ _
  | .rdcycWcc _ _ | .halt _ | .haltRetain _ _ | .yield _ | .ld _ _ _ _ _ _ _ | .st _ _ _ _ _ _
  | .ldAcq _ _ _ _ _ _ | .stRel _ _ _ _ _ | .mark _ | .fence _ _ | .drainPool _ | .drainCluster _
  | .drainHbm _ | .drainTier _ | .cwb _ _ | .cinv _ _ | .cflush _ _ | .cwbr _ _ _ | .cinvr _ _ _
  | .cflushr _ _ _ | .l1inv _ | .faa _ _ _ _ _ _ _ | .cas _ _ _ _ _ _ _ _ | .swp _ _ _ _ _ _ _
  | .atomicAnd _ _ _ _ _ _ _ | .atomicOr _ _ _ _ _ _ _ | .atomicXor _ _ _ _ _ _ _ | .atomicMinI _ _ _ _ _ _ _
  | .atomicMaxI _ _ _ _ _ _ _ | .atomicMinN _ _ _ _ _ _ _ | .atomicMaxN _ _ _ _ _ _ _ | .fadda _ _ _ _ _ _ _
  | .redc _ _ _ _ _ _ | .spawnu _ _ _ _ | .mig _ _ | .home _ | .send _ _ _ _ | .mcast _ _ _ _ | .recv _ _
  | .bind _ _ _ | .spawn _ _ | .join _ _ | .taskend _ | .epushCopy _ _ | .epushGather _ _ | .epushColl _ _
  | .epopCopy _ _ | .epopGather _ _ | .epopColl _ _ | .post _ _ _ | .job _ _ _ | .jobRel _ _ _
  | .salloc _ _ _ _ | .sallocMir _ _ _ _ | .sfree _ _ | .sinfoSize _ _ _ | .sinfoHealth _ _ _
  | .sinfoQuota _ _ _ | .sinfoInc _ _ _ | .dotm _ _ _ _ | .eret _ | .xinv _ _ _ | .snap _ | .bkpt _
  | .trap _ _ | .sysr _ _ _ | .sysw _ _ _ | .syswWp _ _ | .syswSpace _ _ | .syswBndW _ _ | .syswBndS _ _
  | .syswBndL _ _ | .syswWin _ _ _ | .syswHmask _ _ _ | .syswSlotmap _ _ | .syswDomtabB _ _ _
  | .syswDomtabL _ _ _ => true
  | _ => false

/-- Whether an instruction is a prefix pair. -/
def Instr.isPair : Instr → Bool
  | .addiLong _ _ _ _ | .andiLong _ _ _ _ | .oriLong _ _ _ _ | .xoriLong _ _ _ _ | .moviLong _ _ _
  | .inshiLong _ _ _ | .muliLong _ _ _ _ => true
  | _ => false

/-- Whether an engine's table gives a word for an instruction (Tables 10 and 11 of R29). -/
def Instr.isWordOf : Instr → Engine → Bool
  | .lit _ | .ext _ | .dup | .drop | .swap | .over | .adds | .subs | .shls _ _ | .atW | .dt | .rdv | .loopW
  | .loopReg | .endl | .ppt | .haltj | .setf _ | .nopw => fun _ => true
  | .fmt | .ctab | .tsclW | .tsclA | .oasis | .take _ | .segt | .await _ | .manc | .mancOff | .selk | .shape
  | .rdpcc => fun e => e == .seq
  | .ldw _ | .lda _ | .lds _ | .pfw _ | .pfa _ | .tfw _ | .tfa _ | .gta _ => fun e => e == .lde
  | .mma _ _ _ _ | .mmaz _ _ _ _ | .dwa _ | .dwaz _ => fun e => e == .mxe
  | .vadd _ | .vsub _ | .vmul _ | .vfma _ | .vmax _ | .vmin _ | .vabs _ | .vexp _ | .vrcp _ | .vrsq _
  | .vsel _ | .vcmp _ _ | .vred _ _ | .vcvt _ _ | .vres _ _ | .vcmpu _ _ | .vrq _ _ | .vmov _ => fun e => e == .vxe
  | .cpaa | .cpah | .cprs _ _ | .cprh _ _ | .topr _ | .topc _ | .spill | .fillc _ => fun e => e == .cpe
  | _ => fun _ => false

end Sys2Proof
end

