-- ==== Sys2Proof/Machine/Issue.lean ====
section
/-! DEFINITION. What acts next: the order of work inside a wall cycle. Phase 0: what is due; 1: the streams; 6, which
follows it: loads of mapped ranges; 2: buffers and completions; 3: the cores' issue slots (R237); 4: deposits (R276); 5: the end of the cycle. [log 5] -/

namespace Sys2Proof.Machine

/-- The next piece of work: an instruction, word or event on a state made ready for it, or a state that moves on by
itself. -/
inductive Turn where
  | run (i : Instr) (s : State)
  | quiet (s : State)
  deriving DecidableEq, Repr

/-- An event acts with an operand. -/
def event (s : State) (i : Instr) (o : Operand) : Option Turn := some (.run i { s with ev := o })

/-- The first turn that a list of parts gives. -/
def firstTurn {α : Type} (l : List α) (f : α → Option Turn) : Option Turn := l.findSome? f

/-- The first of two turns. -/
def Turn.orElse (a b : Option Turn) : Option Turn := match a with
  | some t => some t
  | none => b

/-! ## Phase 0: boot and the timed plane -/

/-- A device that has to boot (R355). -/
def State.bootTurn (s : State) : Option Turn :=
  firstTurn (List.range Config.devices) fun d =>
    if (s.dev d).bootStatus = 1 ∧ (s.dev d).power = 0 then event s .powerOnBoot (.dev d) else none

/-- Holds of partitions (R192). -/
def State.holdTurn (s : State) : Option Turn :=
  firstTurn s.parts fun e =>
    let k := PartRef.ofCode e.1
    if !e.2.formed ∨ s.holdsNow k = e.2.held then none
    else event s (if e.2.held then .haboobEnd else .holdOnset) (.part k)

/-- A window of a job whose close has come (R187). -/
def State.closeTurn (s : State) (j : Nat) (v : Job) : Option Turn :=
  firstTurn v.windows fun w =>
    if !w.2.closed ∧ w.2.closeAt ≤ (s.part v.part).pcc then event s .oasisClose (.jobRecord j w.1) else none

/-- What is due for a running job: the start of decoding (R114), closes, MAXGAP (R124), late loads (R141), its completion
(R125). -/
def State.runningTurn (s : State) (j : Nat) (v : Job) : Option Turn :=
  let start : Option Turn :=
    if v.start ≤ (s.part v.part).pcc + 64 ∧ v.fault.isNone
        ∧ v.refs.any fun p => engines.any fun e => (s.stream ⟨p, e⟩).started && (s.stream ⟨p, e⟩).dec == .idle then
      event s .decodeStart (.job j)
    else none
  let gap : Option Turn := firstTurn v.refs fun p =>
    if v.fault.isNone ∧ s.gapExceeded v p then event s .maxgapExpiry (.pipe p) else none
  let late : Option Turn := firstTurn v.refs fun p => firstTurn (s.pipe p).ops fun o =>
    if o.2.job = j ∧ s.loadLate p o.2 then event s .loadDeadline (.op p o.1 0) else none
  let done : Option Turn := if s.jobFinished j v ∧ !s.recordMoves v then event s .jobComplete (.job j) else none
  Turn.orElse start (Turn.orElse (s.closeTurn j v) (Turn.orElse gap (Turn.orElse late done)))

/-- What is due for a timed job. -/
def State.jobTurn (s : State) (j : Nat) (v : Job) : Option Turn :=
  match v.state with
  | .running => s.runningTurn j v
  | .frozen =>
    if !v.recorded ∧ v.fault.isSome ∧ !s.jobBusy j ∧ v.milestones = [] ∧ !s.recordMoves v then
      event s .jobFaultRecord (.job j) else none
  | .suspended => if s.mayResume v then event s .jobResume (.job j) else none
  | _ => none

/-- A request of the front whose victims have left their pipes, or have not stopped in time (R332, R334). -/
def State.requestTurn (s : State) : Option Turn :=
  firstTurn s.parts fun e => firstTurn e.2.requests fun q =>
    let r := q.2.1
    let vs := (s.victims r).filter fun j => (s.awaited r).contains j
    let saved := (requestPipes r).all fun p =>
      match s.suspendedOn p with
      | some (_, v) => v.savedAt.isSome
      | none => true
    let sent := s.inFlight fun i o => i == .jobAccept && o == .request r
    let overdue := vs.any fun j => match s.jobs.get? j with
      | some v => decide (q.1 + v.maxgap + s.horizon r.part < e.2.pcc)
      | none => false
    if vs = [] ∧ saved ∧ !sent then some (.quiet (s.within (s.answerBound r) .jobAccept (.request r)))
    else if overdue then event s .displacementTimeout (.request r)
    else none

/-- The end of the bank claim that a pipe serves (R336). -/
def State.claimTurn (s : State) (p : PipeRef) : Option Turn :=
  match s.claimDue p with
  | none => none
  | some c =>
    match c.kind with
    | .clear => event s .bankClearEnd (.bank c.bank)
    | .writeOut => event s .bankWriteOutEnd (.bank c.bank)
    | .fill => event s .bankFillEnd (.bank c.bank)
    | .own | .free | .behind => some (.quiet (s.endClaim c))

/-! ## Phase 0: events in flight -/

/-- Events of the agenda that a later phase takes: landings and accesses to mapped ranges follow the scheduled accesses of
the cycle (R198), a snapshot shows the end of it (R340). -/
def isLate (i : Instr) : Bool :=
  match i with
  | .loadLanding | .oasisAccessArrival | .snapshotCapture => true
  | _ => false

/-- Whether phase 0 takes an entry: not a steal, which the core's own operations of the cycle precede at its deque (R240). -/
def isEarly (e : Nat × Instr × Operand) : Bool := !isLate e.2.1 && e.2.1 != .stealProbeComplete

/-- Whether the outstanding probe of a core has come to the end of its bound (R239). -/
def State.probeOver (s : State) (c : CoreRef) : Bool :=
  ((s.core c).steal.bind fun v => v.probing).any fun t => decide (t ≤ s.wcc)

/-- Whether an agenda entry is due: a request for the port of a post slot or of a deque waits while the port has served its
one operation of the cycle (R176, R240), a packet that is kept at its source or not sent is on no way (R298, R299). -/
def State.isDue (s : State) (e : Nat × Instr × Operand) : Bool :=
  decide (e.1 ≤ s.wcc) && !s.keptBack e.2.1 e.2.2 && (match e.2.1, e.2.2 with
    | .postArrival, .post r => r.reached.isNone || !((s.postTarget r).any fun x => x.1.2.portTook r s.wcc)
    | .stealProbeComplete, .thief c victim => !s.portBusy victim || s.probeOver c
    | _, _ => true)

/-- The order of the requests that reach one port in one cycle, by their core: posts at a slot (R176), steals at a deque
(R240). -/
def portOrder (e : Nat × Instr × Operand) : Nat :=
  match e.2.1, e.2.2 with
  | .postArrival, .post r => r.src.core.order
  | .stealProbeComplete, .thief c _ => c.order
  | _, _ => 0

/-- Whether an entry's request for a port comes before another's: it came in an earlier cycle, or stands first in the order of
its cycle. -/
def portBefore (a b : Nat × Instr × Operand) : Bool :=
  decide (a.1 < b.1) || (a.1 == b.1 && decide (portOrder a < portOrder b))

/-- The entry that acts first among those that satisfy a test: the first in the list, or of requests for ports the first in
their order. -/
def State.dueEntry (s : State) (p : Nat × Instr × Operand → Bool) : Option (Nat × Instr × Operand) :=
  match s.agenda.filter fun e => s.isDue e && p e with
  | [] => none
  | e :: rest =>
    if e.2.1 = .postArrival ∨ e.2.1 = .stealProbeComplete then
      some ((rest.filter fun x => x.2.1 == e.2.1).foldl (fun a b => if portBefore b a then b else a) e)
    else some e

/-- Takes an entry off the agenda and lets it act. -/
def State.agendaTurn (s : State) (p : Nat × Instr × Operand → Bool) : Option Turn :=
  match s.dueEntry p with
  | none => none
  | some e => event { s with agenda := s.agenda.erase e } e.2.1 e.2.2

/-! ## Phase 0: contexts that wait, cores, devices -/

/-- A JOIN whose counter reads 0 is released within 64 cycles; one that can no longer be read, at once (R229, R277). -/
def State.joinTurn (s : State) (t : CtxRef) (va : Word) (since : Option Nat) : Option Turn :=
  let mark (x : Option Nat) : State := s.modCtx t fun c => { c with mode := .waiting (.join va x) }
  if s.counterHidden t va then (if since.isSome then some (.quiet (mark none)) else none) else
  match s.counterValue t va, since with
  | .error _, _ => event s .joinRelease (.ctx t 0)
  | .ok 0, none => some (.quiet ((mark (some s.wcc)).within 63 .joinRelease (.ctx t 0)))
  | .ok 0, some _ => none
  | .ok _, some _ => some (.quiet (mark none))
  | .ok _, none => none

/-- What a waiting context's wait brings now. -/
def State.waitTurn (s : State) (t : CtxRef) (w : Wait) : Option Turn :=
  let c := s.ctx t
  match w with
  | .until n norm =>
    if s.wcc < n then none
    else some (.quiet (if norm then ({ s with tf := t } : State).useNormaliser else s.makeReady t))
  | .again => some (.quiet (s.resume t))
  | .drain upd =>
    if c.stores = [] ∧ (upd = false ∨ (s.ctx (s.homeOf t)).updates = []) then some (.quiet (s.resume t)) else none
  | .depart l =>
    if s.cannotGo t l then some (.quiet (s.resume t))
    else if s.mayLeave t l then some (.quiet (s.leave t l)) else none
  | .push e => if ((s.core t.core).engine e).fifo.length < 16 then some (.quiet (s.resume t)) else none
  | .pop e => if ((s.core t.core).engine e).results ≠ [] then some (.quiet (s.resume t)) else none
  | .join va since => s.joinTurn t va since
  | .start desc =>
    if s.descMoves t.core c.space c.priv desc then none
    else some (.quiet (s.startTask t c.env c.priv desc (s.descriptor t.core c.space c.priv desc)))
  | .drainMem m bound => if s.drained t m bound then event s .drainComplete (.ctx t 0) else none
  | _ => none

/-- Whether a core runs: a switch core stops with its switch (R286), the cores of a device run in power state 0 (R352). -/
def State.coreRuns (s : State) (k : CoreRef) : Bool :=
  match k with
  | .switch n _ => (s.switch n).up
  | .thread d _ _ | .edge d _ => (s.dev d).power == 0

/-- The first context whose wait ends: those of a core that does not run wait on. -/
def State.ctxTurn (s : State) : Option Turn :=
  firstTurn s.ctxs fun e =>
    match e.2.mode with
    | .waiting w => if e.2.suspended || !s.coreRuns (CtxRef.ofCode e.1).core then none else s.waitTurn (.ofCode e.1) w
    | _ => none

/-- A shared unit that takes the next context (R38, R226). -/
def State.unitTurn (s : State) (c : CoreRef) (v : Core) : Option Turn :=
  if v.divQueue ≠ [] ∧ v.divBusy ≤ s.wcc then event s .sharedUnitGrant (.unit c .divider)
  else if v.normQueue.head?.any (fun n => decide (n < 16)) ∧ v.normBusy ≤ s.wcc then
    event s .sharedUnitGrant (.unit c .normaliser)
  else none

/-- The head of an inbox that finds its contexts (R243). -/
def State.inboxTurn (s : State) (c : CoreRef) (v : Core) : Option Turn :=
  match v.inbox with
  | b :: _ =>
    if contextsFor b c ≤ (s.freeCtxs c).length then event s .caravanAdmission (.arrive c b) else none
  | [] => none

/-- A local start (R239), within 16 cycles of the moment from which it may be made. -/
def State.localTurn (s : State) (c : CoreRef) (v : Core) : Option Turn :=
  let sent := s.inFlight fun i o => i == .localStart && o == .core c
  if v.dqLen ≠ 0 ∧ (s.localEnv c).isSome ∧ (s.startContext c).isSome ∧ !s.startedLately c ∧ !sent then
    some (.quiet (s.within 16 .localStart (.core c)))
  else none

/-- The members of a steal set whose deques hold entries. -/
def State.stealVictims (s : State) (c : CoreRef) (j : Nat) : List CoreRef :=
  (s.setCores j).filter fun k => k != c && (s.core k).dqLen != 0 && !s.onlyRetains k

/-- Whether a core is a thief: a member of the steal set of a running job with a context that waits in TASKEND, or with an empty
deque and 2 free contexts (R238, R239). -/
def State.isThief (s : State) (c : CoreRef) (v : Core) : Bool :=
  match s.stealJob c with
  | some (_, job) =>
    job.state == .running && !s.onlyRetains c
      && ((s.waitingThief c).isSome || (v.dqLen == 0 && (s.startContext c).isSome))
  | none => false

/-- The probe of a thief: first in the cycle after it became one, then every 32 cycles (R239). -/
def State.stealTurn (s : State) (c : CoreRef) (v : Core) : Option Turn :=
  match v.steal.bind fun x => x.first.map fun f => (x, f) with
  | none => none
  | some (x, f) =>
    if s.wcc < f ∨ (s.wcc - f) % 32 ≠ 0 ∨ x.probing.isSome ∨ !s.isThief c v then none
    else
      let vs := s.stealVictims c x.tjob
      let (k, s1) := s.pick vs.length
      match vs[k]? with
      | some victim => event s1 .stealProbe (.thief c victim)
      | none => none

/-- The end of a cycle for the thieves: a core that has become one makes its first probe in the next cycle, one that has ceased to
be one starts afresh when it is one again (R239). -/
def State.noteThieves (s : State) : State :=
  { s with cores := s.cores.map fun e =>
      match e.2.steal with
      | none => e
      | some x =>
        let first := if s.isThief (.ofCode e.1) e.2 then some (x.first.getD (s.wcc + 1)) else none
        (e.1, { e.2 with steal := some { x with first := first } }) }

/-- What a core's own work brings, while it runs. -/
def State.coreTurn (s : State) (c : CoreRef) (v : Core) : Option Turn :=
  if !s.coreRuns c then none
  else Turn.orElse (s.unitTurn c v) (Turn.orElse (s.inboxTurn c v) (Turn.orElse (s.localTurn c v) (s.stealTurn c v)))

/-- Host accesses that a bridge holds no longer (R306, R313). -/
def State.hostTurn (s : State) : Option Turn :=
  firstTurn s.devs fun e =>
    match e.2.heldBar2 with
    | [] => none
    | r :: _ => if s.heldAtBridge e.1 r then none else some (.quiet (s.drainHeld e.1 e.2.heldBar2.length))

/-- The queue of a priority whose head is taken: in rotation, after the one last taken (R342). -/
def State.turnQueue (s : State) (d prio : Nat) : Option (Nat × Packet) :=
  let last := ((s.dev d).turn.get? prio).getD 63
  (List.range 64).findSome? fun i =>
    let q := (last + 1 + i) % 64
    if (s.queue d q).prio = prio then (s.takeable d q).map fun p => (q, p) else none

/-- The event that takes a packet of a kind. -/
def packetEvent (kind : Nat) : Instr :=
  match kind with
  | 1 => .packetLaunch
  | 2 => .packetGraph
  | 3 => .packetCopy
  | 4 => .packetWait
  | 5 => .packetSignal
  | _ => .packetFence

/-- What a device brings: the take of a packet (R342), the gating of an idle device (R352). -/
def State.devTurn (s : State) (d : Nat) : Option Turn :=
  if !(s.dev d).served then none
  else
    match ([3, 2, 1, 0] : List Nat).findSome? (s.turnQueue d) with
    | some (q, p) => event s (packetEvent p.kind) (.queue d q)
    | none => if s.gateDue d then event s .powerGateEntry (.dev d) else none

/-- The next turn of phase 0. -/
def State.dueTurn (s : State) : Option Turn :=
  Turn.orElse s.bootTurn (Turn.orElse s.holdTurn (Turn.orElse (firstTurn s.jobs fun e => s.jobTurn e.1 e.2)
    (Turn.orElse s.requestTurn (Turn.orElse (s.agendaTurn isEarly)
      (Turn.orElse (firstTurn s.pipes fun e => s.claimTurn (.ofCode e.1)) (Turn.orElse s.hostTurn (Turn.orElse s.ctxTurn
      (Turn.orElse (firstTurn s.cores fun e => s.coreTurn (.ofCode e.1) e.2) (firstTurn s.devs fun e => s.devTurn e.1)))))))))

/-! ## Phase 1: the streams -/

/-- Whether a launch word is a tile command (R203). -/
def isTileCommand : Instr → Bool
  | .mma _ _ _ _ | .mmaz _ _ _ _ | .dwa _ | .dwaz _ => true
  | _ => false

/-- The busy MXEs of a pipe's cluster (R203). -/
def State.busyUnits (s : State) (p : PipeRef) : Nat :=
  ((List.range 24).filter fun i =>
    (s.pipe ⟨p.dev, p.p / 24 * 24 + i⟩).ops.any fun o => o.2.eng == .mxe && decide (o.2.rel < o.2.interval)).length

/-- A launch word that is ready issues at its actual stamp (R186), unless the power budget holds its pipe (R203). -/
def State.issueTurn (s : State) (v : Job) (x : StreamRef) (w : Instr) (stamp : Nat) : Option Turn :=
  if stamp ≠ s.clock v x.pipe ∨ (s.part v.part).held ∨ (s.pipe x.pipe).budgetHeld then none
  else if v.compat ∧ isTileCommand w ∧ v.heavy ≤ s.busyUnits x.pipe then
    some (.quiet (s.modPipe x.pipe fun p => { p with budgetHeld := true }))
  else some (.run w { s with sf := x })

/-- The arming of a window that a stream stands in front of, at entry(0), if no redirect has taken this arrival (R188). -/
def Job.entryAt (v : Job) (t : Stream) (e : Engine) : Option (Nat × Nat) :=
  if t.taken then none else
  t.owed.find? fun x =>
    match v.oases[x.1]? with
    | some o => ((v.segments o)[0]?).map (fun g => g.entry e) == some t.pos
    | none => false

/-- A word in a LOOP's skipped body, which counts as a decoded word (R114, R122); only its nesting matters, and it raises no fault.
[log 103] -/
def Stream.skip (t : Stream) (depth : Nat) (w : Option Instr) : Stream :=
  let t := { t with pos := t.pos + 1, budget := t.budget + 1 }
  match w with
  | some .loopW | some .loopReg => { t with dec := .skipping (depth + 1) }
  | some .endl => if depth = 0 then { t with dec := .decoding } else { t with dec := .skipping (depth - 1) }
  | _ => t

/-- A stream decodes its next word: a free word acts at once; a launch word becomes ready, and issues if its stamp is the
current one (R113 to R115). -/
def State.decodeTurn (s : State) (j : Nat) (v : Job) (x : StreamRef) (t : Stream) : Option Turn :=
  let s1 := { (s.modStream x fun t => { t with pos := t.pos + 1, budget := t.budget + 1, taken := false }) with sf := x }
  match t.code[t.pos]? with
  | none => some (.run .runOff { s with sf := x })
  | some w =>
    match decodeStream x.eng w.toNat with
    | none => some (.run .illegalWord s1)
    | some i =>
      if isFreeWord i then some (.run i s1)
      else
        let s2 := s1.becomeReady j v i
        match (s2.stream x).dec with
        | .launch w stamp => Turn.orElse (s2.issueTurn v x w stamp) (some (.quiet s2))
        | _ => some (.quiet s2)

/-- What a stream of a running job does next in the current cycle. -/
def State.streamTurn (s : State) (j : Nat) (v : Job) (x : StreamRef) : Option Turn :=
  let t := s.stream x
  let stopped := ((s.part v.part).held && t.bound.isNone) || (s.pipe x.pipe).budgetHeld
  match t.dec with
  | .launch w stamp => s.issueTurn v x w stamp
  | .skipping depth =>
    if stopped ∨ 4 ≤ t.budget then none
    else
      match t.code[t.pos]? with
      | none => some (.run .runOff { s with sf := x })
      | some w => some (.quiet (s.modStream x fun t => t.skip depth (decodeStream x.eng w.toNat)))
  | .decoding =>
    if stopped ∨ 4 ≤ t.budget then none
    else
      match v.entryAt t x.eng with
      | some (i, at_) => some (.quiet (s.modStream x fun t => { t with dec := .entry i at_ }))
      | none => s.decodeTurn j v x t
  | .entry i at_ =>
    match v.arming i at_ with
    | some w => if s.redirectDue v x.pipe w then event s .segmentRedirect (.stream x) else none
    | none => none
  | _ => none

/-- The order of a pipe's engines within a cycle: the MXE first, since the budget may hold the pipe, and the SEQ last. -/
def streamOrder : List Engine := [.mxe, .lde, .vxe, .cpe, .seq]

/-- The pipes on which jobs run: those of native jobs before those of compatibility mode (R203), in ascending number. -/
def State.activePipes (s : State) (compat : Bool) : List (PipeRef × Nat × Job) :=
  s.pipes.filterMap fun e =>
    match e.2.job with
    | none => none
    | some j =>
      match s.jobs.get? j with
      | none => none
      | some v => if v.state = .running ∧ v.compat = compat then some (.ofCode e.1, j, v) else none

/-- The next stream turn of the cycle. -/
def State.streamsTurn (s : State) : Option Turn :=
  firstTurn (s.activePipes false ++ s.activePipes true) fun x =>
    firstTurn streamOrder fun e => s.streamTurn x.2.1 x.2.2 ⟨x.1, e⟩

/-- Whether a wanted job is at a stop point: frozen, at a PPT stamp of every pipe, or held (R333). One that has a fault in this
cycle freezes first (R330). -/
def State.atStop (s : State) (v : Job) : Bool :=
  v.wanted && (v.state == .frozen || (v.state == .running && v.fault.isNone && ((s.part v.part).held
    || v.refs.all fun p => !(s.stream ⟨p, .seq⟩).started || (s.pipe p).pptAt == some (s.clock v p))))

/-- A victim that stops (R333). -/
def State.stopTurn (s : State) : Option Turn :=
  firstTurn s.jobs fun e => if s.atStop e.2 then event s .victimStop (.job e.1) else none

/-! ## Phase 2: buffers and completions -/

/-- Whether an entry of the agenda is a load of a mapped range that reaches its pipe. -/
def isLoadArrival (e : Nat × Instr × Operand) : Bool :=
  e.2.1 == .oasisAccessArrival && (match e.2.2 with
    | .access r => r.store.isNone
    | _ => false)

/-- The loads of mapped ranges, before what the cycle writes: one reaches its pipe, one that waits there is served (R270). -/
def State.loadsTurn (s : State) : Option Turn :=
  Turn.orElse (s.agendaTurn isLoadArrival)
    (firstTurn s.pipes fun e => firstTurn e.2.waiters fun r =>
      if r.store.isNone && s.canServe r then event s .oasisAccessArrival (.access r) else none)

/-- A store to a mapped range that waits at a pipe, to be taken or, at its window's close, refused; a line that the store buffer
drains (R270). -/
def State.waiterTurn (s : State) (p : PipeRef) (v : Pipe) : Option Turn :=
  let served : Option Turn := firstTurn v.waiters fun r =>
    if r.store.isSome && ((s.admits r).isNone || s.canBuffer r) then event s .oasisAccessArrival (.access r) else none
  let drained : Option Turn := if (s.drainable p).isSome then event s .oasisStoreBufferDrain (.pipe p) else none
  Turn.orElse served drained

/-- The event that completes a unit of an engine's operation. -/
def completionEvent (e : Engine) : Instr :=
  match e with
  | .mxe => .tileRowComplete
  | .vxe => .vxeStepComplete
  | .cpe => .cpeWritePerformed
  | _ => .loadLanding

/-- A unit of an operation that completes in the current cycle. -/
def State.unitDone (s : State) (p : PipeRef) (v : Pipe) : Option Turn :=
  firstTurn v.ops fun o =>
    if s.opRuns p o.2 then
      match o.2.ready with
      | some i => event s (completionEvent o.2.eng) (.op p o.1 i)
      | none => none
    else none

/-- The next turn of phase 2. -/
def State.lateTurn (s : State) : Option Turn :=
  Turn.orElse (firstTurn s.pipes fun e => s.waiterTurn (.ofCode e.1) e.2)
    (Turn.orElse (firstTurn s.pipes fun e => s.unitDone (.ofCode e.1) e.2)
      (s.agendaTurn fun e => isLate e.2.1 && e.2.1 != .snapshotCapture && !isLoadArrival e))

/-! ## Phase 3: the issue slots (R237) -/

/-- The instruction that a context issues: the decoded one, illegal-instruction (R24), or a failed fetch (R65). -/
def State.fetched (s : State) (t : CtxRef) : Instr :=
  match s.codeBytes t with
  | .error _ => .fetchFault
  | .ok bs =>
    match decodeCode bs with
    | .ok (i, _) => i
    | .error _ => .illegalInstruction

/-- A context takes the issue slot of its core: it goes to the tail of the rotation, before those that join it in the next
cycle (R236), and what a YIELD holds behind it waits no longer. -/
def State.takeSlot (s : State) (t : CtxRef) (i : Instr) : State :=
  let joins (n : Nat) : Bool := decide (s.wcc < (s.ctx ⟨t.core, n⟩).readyAt)
  let s1 := s.modCore t.core fun c =>
    let c := c.leaveRotation t.n
    { c with rot := (c.rot.filter fun n => !joins n) ++ [t.n] ++ c.rot.filter joins, held := c.held.filter fun h => h.2 != [], lastIssue := some s.wcc }
  let s2 := s1.modCtx t fun c => { c with last := some s.wcc, cur := some i, phase := 0, held := none, asked := none }
  { (s2.noteWalk (s2.memDev t) (s2.ctx t).space (s2.ctx t).pc.toNat) with tf := t }

/-- Whether a YIELD holds a context. -/
def Core.holds (c : Core) (n : Nat) : Bool := c.held.any fun h => h.1 == n && h.2 != []

/-- Whether a context may issue now; the walk of its PC waits for X of an interleave change (R313). -/
def State.mayIssue (s : State) (k : CoreRef) (v : Core) (n : Nat) : Bool :=
  let c := s.ctx ⟨k, n⟩
  c.mode == .ready && decide (c.readyAt ≤ s.wcc) && (match c.last with
      | some l => decide (l + 4 ≤ s.wcc)
      | none => true)
    && !v.holds n && !s.jobStopped c && !s.leaderLeaves ⟨k, n⟩ && !s.walkMoves (s.memDev ⟨k, n⟩) c.space c.pc.toNat

/-- The turn of a core: an instruction whose wait has ended goes on; else the first context of the rotation that may issue
does. -/
def State.slotTurn (s : State) (k : CoreRef) (v : Core) : Option Turn :=
  if !s.coreRuns k then none else
  match (List.range 16).find? fun n => (s.ctx ⟨k, n⟩).mode == .resume with
  | some n =>
    match (s.ctx ⟨k, n⟩).cur with
    | some i => some (.run i { s with tf := ⟨k, n⟩ })
    | none => some (.quiet (s.makeReady ⟨k, n⟩))
  | none =>
    if s.wcc < v.stall ∨ v.lastIssue = some s.wcc then none
    else
      match v.rot.find? fun n => s.mayIssue k v n with
      | none => none
      | some n =>
        let i := s.fetched ⟨k, n⟩
        some (.run i (s.takeSlot ⟨k, n⟩ i))

/-- The next turn of phase 3. -/
def State.slotsTurn (s : State) : Option Turn := firstTurn s.cores fun e => s.slotTurn (.ofCode e.1) e.2

/-! ## Phase 4: deposits (R97, R276) -/

/-- The next deposit of the cycle; then the steals that reach their deques in it (R240). -/
def State.depositTurn (s : State) : Option Turn :=
  Turn.orElse
    (firstTurn s.cores fun e => firstTurn (List.range 8) fun k =>
      let c := CoreRef.ofCode e.1
      if s.canDeposit c k then event s .messageDeposit (.msgClass c k) else none)
    (s.agendaTurn fun e => e.2.1 == .stealProbeComplete)

/-! ## The end of a cycle -/

/-- The end of a cycle for an operation: it advances, or a stretch cycle passes (R199, R200). -/
def Op.advance (op : Op) : Op := if op.unserved then { op with stretch := op.stretch + 1 } else { op with rel := op.rel + 1 }

/-- The end of a cycle for the operations of a pipe, with the stretches counted for it and for the streams whose last launch
they are. -/
def State.endOps (s : State) (p : PipeRef) : State :=
  (s.pipe p).ops.foldl (fun st o =>
    if !s.opRuns p o.2 then st
    else
      let op := o.2.advance
      let put (st : State) : State := st.modPipe p fun v =>
        { v with ops := if op.over then v.ops.drop o.1 else v.ops.put o.1 op }
      if o.2.unserved then
        let s1 := ((put st).modPipe p fun v => { v with conflicts := v.conflicts + 1 }).modJob op.job fun v =>
          { v with conflicts := v.conflicts + 1 }
        match s1.jobs.get? op.job with
        | some v =>
          if (s1.pipe p).job = some op.job then
            s1.modStream ⟨p, op.eng⟩ fun t =>
              if lastActual v t = (op.issue : Int) then { t with lastStretch := t.lastStretch + 1 } else t
          else s1
        | none => s1
      else put st) s

/-- The end of a cycle for a pipe: bank cycles are over, the count of compatibility mode moves on (R203). -/
def State.endPipe (s : State) (p : PipeRef) : State :=
  let s1 := s.endOps p
  let runs (j : Nat) : Bool := ((s.jobs.get? j).map fun v =>
    v.state == .running && v.compat && !(s.part v.part).held && decide (v.start ≤ (s.part v.part).pcc)).getD false
  let held := (s.pipe p).budgetHeld
  let ends (running : Bool) (s : State) : State := s.modPipe p fun v =>
    { v with usedA := [], usedC := [], budgetHeld := false, slip := if running && !held then v.slip + 1 else v.slip }
  match (s.pipe p).job.filter runs with
  | some j => ends true (if held then s1.modJob j fun v => { v with budgetHolds := v.budgetHolds + 1 } else s1)
  | none => ends false s1

/-- A job with a fault freezes; its hold declarations are released (R119, R330). A suspended one has left its pipes already, as a
frozen job does that is displaced (R332, R334). [log 36] -/
def State.freezeJobs (s : State) : State :=
  s.jobs.foldl (fun st e =>
    if e.2.fault.isSome ∧ (e.2.state = .running ∨ e.2.state = .suspended) then
      let s1 := (st.modJob e.1 fun v => { v with state := .frozen }).releaseHolds fun h => h.job == e.1
      if e.2.state = .suspended then (s1.freeBanks e.1 e.2.space).forgetSuspended e.1 e.2 else s1
    else st) s

/-- The end of a wall cycle (R182). -/
def State.tick (s : State) : State :=
  let s1 := s.pipes.foldl (fun st e => st.endPipe (.ofCode e.1)) s
  let s2 := s1.freezeJobs.joinIdle.noteIdle.noteThieves
  { s2 with
    streams := s2.streams.map fun e => (e.1, { e.2 with budget := 0 })
    parts := s2.parts.map fun e => (e.1, if e.2.formed && !e.2.held then { e.2 with pcc := (e.2.pcc + 1) % 2 ^ 64 } else e.2)
    wcc := s2.wcc + 1
    phase := 0 }

/-- The first context whose counter has reached its target in this cycle: it is ready in the next (R66). -/
def State.counterTurn (s : State) : Option Turn :=
  firstTurn s.ctxs fun e =>
    if !e.2.suspended && s.coreRuns (CtxRef.ofCode e.1).core && s.counterReached (.ofCode e.1) then event s .waitcWake (.ctx (.ofCode e.1) 0) else none

/-- The first queue whose completion record is stored in this cycle (R347). -/
def State.recordTurn (s : State) : Option Turn :=
  firstTurn s.queues fun e =>
    if s.recordDue (e.1 / 64) (e.1 % 64) then some (.quiet (s.storeCompletion (e.1 / 64) (e.1 % 64))) else none

/-- The turn that a phase gives, or the next phase. -/
def State.orPhase (s : State) (n : Nat) (t : Option Turn) : Turn := t.getD (.quiet { s with phase := n })

/-- What acts next. -/
def State.nextTurn (s : State) : Turn :=
  match s.phase with
  | 0 => s.orPhase 1 s.dueTurn
  | 1 =>
    match Turn.orElse s.streamsTurn s.stopTurn with
    | some t => t
    | none => .quiet { s.serveBanks with phase := 6 }
  | 6 => s.orPhase 2 s.loadsTurn
  | 2 => s.orPhase 3 s.lateTurn
  | 3 => s.orPhase 4 s.slotsTurn
  | 4 => s.orPhase 5 s.depositTurn
  | _ =>
    (Turn.orElse s.recordTurn (Turn.orElse s.counterTurn (s.agendaTurn fun e => e.2.1 == .snapshotCapture))).getD
      (.quiet s.tick)

/-! ## Placing a program for the next step [log 15] -/

/-- The page of 64 KiB at an address, translated at its station to the physical address of the same number. -/
def pageEntry (space : BitVec 16) (va : Nat) : TlbEntry :=
  { station := va / 2 ^ 16 % 128, space := space, base := va / 2 ^ 16 * 2 ^ 16, size := 2 ^ 16,
    pa := va / 2 ^ 16 * 2 ^ 16 % 2 ^ 39, wr := true, ex := true, pv := false, masters := 0x3F }

/-- Context 0 of core (0, 0) of device 0. -/
def firstCtx : CtxRef := ⟨.thread 0 0 0, 0⟩

/-- Places thread code at the PC of the first context, which takes the issue slot next. -/
def State.withThreadCode (s : State) (bs : List Byte) : State :=
  let c := s.ctx firstCtx
  let s1 := s.modDev 0 fun v => { v with tlb := pageEntry c.space c.pc.toNat :: v.tlb }
  let s2 : State := { s1 with dram := s1.dram.setBytes (dramAddr 0 (c.pc.toNat % 2 ^ 39)) bs }
  let s3 := s2.setCtx firstCtx
    { c with mode := .ready, last := none, readyAt := 0, held := none, leader := none, suspended := false, tjob := none }
  let s4 := s3.modCore firstCtx.core fun v => { v with rot := [0], held := [], stall := 0, lastIssue := none }
  { s4 with phase := 3 }

/-- Pipe 0 of device 0. -/
def firstPipe : PipeRef := ⟨0, 0⟩

/-- A timed job of one pipe, as a LAUNCH and a JOB would have brought it, whose start stamp is the current PCC. -/
def State.placedJob (s : State) : Job :=
  { part := ⟨0, 0⟩, src := firstCtx, tjob := none, space := (s.ctx firstCtx).space, prio := 0, pipes := [0],
    start := (s.part ⟨0, 0⟩).pcc, maxgap := 2 ^ 23, rdv := 0, latA := 1300, latW := 1200, aligned := false, compat := false,
    heavy := 0, shapes := [], oases := [], segtabs := [], windows := [], postAt := [], past := [], selectors := [], state := .running,
    milestones := [], fault := none, recorded := false, images := [], wanted := false, stopAt := 0, savedAt := none,
    conflicts := 0, budgetHolds := 0 }

/-- Places a word at the head of a stream of the first pipe, which decodes it next. -/
def State.withStreamCode (s : State) (e : Engine) (w : Nat) : State :=
  let j := s.serial
  let s1 : State := { s with serial := j + 1, jobs := s.jobs.put j s.placedJob }
  let s2 := s1.modPart ⟨0, 0⟩ fun p => { p with formed := true, clusters := [0], held := false }
  let s3 := s2.modPipe firstPipe fun p => { p.startJob j with ops := [] }
  let s4 := engines.foldl (fun st k => st.modStream ⟨firstPipe, k⟩ fun t =>
    if k = e then
      { Stream.reset with started := true, code := [BitVec.ofNat 16 w], stack := t.stack, dec := .decoding }
    else Stream.reset) s3
  { s4 with phase := 1 }

end Sys2Proof.Machine
end

