-- ==== Sys2Proof/Machine/Step.lean ====
section
/-! DEFINITION. One step of the domain: the next piece of work of the current wall cycle. -/

namespace Sys2Proof.Machine

/-- One step: what acts next acts, or the machine moves on by itself. -/
def step (s : State) : Host.Outcome State Fault Refusal :=
  match s.nextTurn with
  | .run i s1 => exec i s1
  | .quiet s1 => .next s1

/-- The state with an instruction placed where the next step fetches: thread code at the PC of the first context, a stream
word at the head of the first pipe's stream whose engine decodes it. [log 15] -/
def State.withFetchWord (s : State) (nbits w : Nat) : State :=
  if nbits = 16 then
    match firstEngine (w % 2 ^ 16) tableEngines with
    | some (e, _) => s.withStreamCode e (w % 2 ^ 16)
    | none => s.withStreamCode .seq (w % 2 ^ 16)
  else s.withThreadCode (leBytes (if nbits = 64 then 8 else 4) w)

end Sys2Proof.Machine
end

