-- ==== Sys2Proof/Safety.lean ====
section
/-! DEFINITION. What a safe run is, and the vocabulary of the statements: what a meaning leaves as it was, and what it means
that a thread instruction retires, writes a register, waits or traps. -/

namespace Sys2Proof

/-- The guard of a thread instruction and the bytes it takes; none for the stream words and the events. -/
def Instr.guard? : Instr → Option (Guard × Nat)
  | .add g _ _ _ | .sub g _ _ _ | .mul g _ _ _ | .mulhI64 g _ _ _ | .mulhN64 g _ _ _ | .divI64 g _ _ _
  | .divN64 g _ _ _ | .remI64 g _ _ _ | .remN64 g _ _ _ | .addsatI64 g _ _ _ | .subsatI64 g _ _ _ | .abs g _ _
  | .neg g _ _ | .and g _ _ _ | .or g _ _ _ | .xor g _ _ _ | .andn g _ _ _ | .orn g _ _ _ | .xnor g _ _ _
  | .shl g _ _ _ | .shr g _ _ _ | .sar g _ _ _ | .rol g _ _ _ | .ror g _ _ _ | .clz g _ _ | .ctz g _ _
  | .popc g _ _ | .brev g _ _ | .bswap g _ _ | .minI64 g _ _ _ | .maxI64 g _ _ _ | .minN64 g _ _ _
  | .maxN64 g _ _ _ | .sextI8 g _ _ | .sextI16 g _ _ | .sextI32 g _ _ | .zextN8 g _ _ | .zextN16 g _ _
  | .zextN32 g _ _ | .mov g _ _ | .sel g _ _ _ _ | .lea g _ _ _ _ | .addi g _ _ _ | .andi g _ _ _ | .ori g _ _ _
  | .xori g _ _ _ | .movi g _ _ | .inshi g _ _ | .muli g _ _ _ | .shli g _ _ _ | .shri g _ _ _ | .sari g _ _ _
  | .rori g _ _ _ | .cmp g _ _ _ _ _ | .cmpi g _ _ _ _ | .pand g _ _ _ | .por g _ _ _ | .pxor g _ _ _
  | .pandn g _ _ _ | .pnot g _ _ | .rdp g _ | .wrp g _ | .fcmp g _ _ _ _ _ | .faddF64 g _ _ _ _
  | .fsubF64 g _ _ _ _ | .fmulF64 g _ _ _ _ | .fdivF64 g _ _ _ _ | .fsqrtF64 g _ _ _ | .fmaF64 g _ _ _ _
  | .fminF64 g _ _ _ | .fmaxF64 g _ _ _ | .fabsF64 g _ _ | .fnegF64 g _ _ | .faddF32 g _ _ _ _ | .fsubF32 g _ _ _ _
  | .fmulF32 g _ _ _ _ | .fdivF32 g _ _ _ _ | .fsqrtF32 g _ _ _ | .fmaF32 g _ _ _ _ | .fminF32 g _ _ _
  | .fmaxF32 g _ _ _ | .fabsF32 g _ _ | .fnegF32 g _ _ | .cvt g _ _ _ _ _ | .lnadd g _ _ _ _ | .lnsub g _ _ _ _
  | .lnmul g _ _ _ _ | .lnmin g _ _ _ _ | .lnmax g _ _ _ _ | .lnand g _ _ _ _ | .lnor g _ _ _ _ | .lnxor g _ _ _ _
  | .lnfma g _ _ _ _ | .lncpy g _ _ _ | .lnsum g _ _ _ | .lndot g _ _ _ _ | .br g _ _ | .call g _ | .ret g
  | .jmpi g _ | .calli g _ | .follow g _ | .detach g | .rejoin g | .waitcPcc g _ _ | .waitcWcc g _
  | .rdcycPcc g _ _ | .rdcycWcc g _ | .halt g | .haltRetain g _ | .yield g | .ld g _ _ _ _ _ _ | .st g _ _ _ _ _
  | .ldAcq g _ _ _ _ _ | .stRel g _ _ _ _ | .mark g | .fence g _ | .drainPool g | .drainCluster g | .drainHbm g
  | .drainTier g | .cwb g _ | .cinv g _ | .cflush g _ | .cwbr g _ _ | .cinvr g _ _ | .cflushr g _ _ | .l1inv g
  | .faa g _ _ _ _ _ _ | .cas g _ _ _ _ _ _ _ | .swp g _ _ _ _ _ _ | .atomicAnd g _ _ _ _ _ _
  | .atomicOr g _ _ _ _ _ _ | .atomicXor g _ _ _ _ _ _ | .atomicMinI g _ _ _ _ _ _ | .atomicMaxI g _ _ _ _ _ _
  | .atomicMinN g _ _ _ _ _ _ | .atomicMaxN g _ _ _ _ _ _ | .fadda g _ _ _ _ _ _ | .redc g _ _ _ _ _
  | .spawnu g _ _ _ | .mig g _ | .home g | .send g _ _ _ | .mcast g _ _ _ | .recv g _ | .bind g _ _ | .spawn g _
  | .join g _ | .taskend g | .epushCopy g _ | .epushGather g _ | .epushColl g _ | .epopCopy g _ | .epopGather g _
  | .epopColl g _ | .post g _ _ | .job g _ _ | .jobRel g _ _ | .salloc g _ _ _ | .sallocMir g _ _ _ | .sfree g _
  | .sinfoSize g _ _ | .sinfoHealth g _ _ | .sinfoQuota g _ _ | .sinfoInc g _ _ | .dotm g _ _ _ | .eret g
  | .xinv g _ _ | .snap g | .bkpt g | .trap g _ | .sysr g _ _ | .sysw g _ _ | .syswWp g _ | .syswSpace g _
  | .syswBndW g _ | .syswBndS g _ | .syswBndL g _ | .syswWin g _ _ | .syswHmask g _ _ | .syswSlotmap g _
  | .syswDomtabB g _ _ | .syswDomtabL g _ _ => some (g, 4)
  | .addiLong g _ _ _ | .andiLong g _ _ _ | .oriLong g _ _ _ | .xoriLong g _ _ _ | .moviLong g _ _
  | .inshiLong g _ _ | .muliLong g _ _ _ => some (g, 8)
  | _ => none

/-- Whether a thread instruction's word is legal where it is met (R24): its fields, the number of a SYSR or SYSW, and
for DOTM the core (R107). -/
def Instr.legalAt (i : Instr) (s : Machine.State) : Bool :=
  match i with
  | .sysr _ _ r => (s.sysRead r.toNat).isSome
  | .sysw _ _ r => r == 1 || r == 5
  | .syswHmask _ _ _ => true
  | .dotm _ _ _ t => (match s.tf.core with
    | .edge _ _ => t != 3
    | _ => false)
  | i => i.wf

end Sys2Proof

namespace Sys2Proof.Machine

/-- Every memory of the domain is in its canonical form. -/
def State.memoriesWf (s : State) : Prop :=
  s.pool.wf ∧ s.dram.wf ∧ s.wbuf.wf ∧ s.abuf.wf ∧ s.flash.wf ∧ s.tier.wf

/-- A run is safe when no step of it stops: thread faults trap (R37), stream faults freeze a job (R119). -/
def Safe (s : State) : Prop := ∀ k, ∃ t, Host.Core.run Sys2Proof.core k s = .next t

/-- What an instruction of the acting context that works on its own workspace leaves as it was: every other context and
core, every pool byte but those of `touched`, and all the rest of the domain. -/
structure Frame (s t : State) (touched : Nat → Prop) : Prop where
  pool : ∀ a, ¬touched a → t.pool.get a = s.pool.get a
  ctxs : ∀ u : CtxRef, u.code ≠ s.tf.code → t.ctx u = s.ctx u
  cores : ∀ c : CoreRef, c.code ≠ s.tf.core.code → t.core c = s.core c
  rest : t = { s with pool := t.pool, ctxs := t.ctxs, cores := t.cores }

/-- No byte. -/
def noBytes (_ : Nat) : Prop := False

/-- The n bytes of `pool` from lo on. -/
def bytesAt (lo n a : Nat) : Prop := lo ≤ a ∧ a < lo + n

/-- The bytes of register r of the acting context (R20). -/
def State.regBytes (s : State) (r : Reg) : Nat → Prop := bytesAt (s.workspace s.tf + 8 * r.toNat) 8

/-- The bytes of the predicate word of the acting context (R20). -/
def State.predBytes (s : State) : Nat → Prop := bytesAt (s.workspace s.tf + 128) 8

/-- A context whose instruction of `len` bytes is over: its PC has moved past it and it is ready, from the next cycle on when it
had left the rotation (R236). -/
def Ctx.retired (c : Ctx) (wcc len : Nat) : Ctx :=
  { c with
    pc := c.pc + BitVec.ofNat 64 len, cur := none, phase := 0, held := none, asked := none, mode := .ready
    readyAt := if c.mode = .ready then c.readyAt else wcc + 1 }

/-- The acting context's instruction of `len` bytes is over: its PC has moved past it, it is ready, and nothing else has
changed but pool bytes of `touched` and its place in the rotation. -/
structure Retires (s t : State) (len : Nat) (touched : Nat → Prop) : Prop where
  frame : Frame s t touched
  ctx : t.me = s.me.retired s.wcc len
  core : t.core s.tf.core = { s.core s.tf.core with rot := (t.core s.tf.core).rot }

/-- The acting context issues its instruction: it reads its guard and its registers now, not those of an earlier issue after
which it waited (R23, R36). -/
abbrev State.Issues (s : State) : Prop := s.me.held = none

/-- The premise under which a guarded instruction has its effect at its issue: the guard holds (R23), and the pool is in
canonical form, so that registers read as they were written. -/
abbrev State.Enabled (s : State) (g : Guard) : Prop := s.pool.wf ∧ s.Issues ∧ s.guardHolds g

/-- Instruction i writes v to register d and retires; nothing else changes (R36). -/
def WritesReg (i : Instr) (s : State) (len : Nat) (d : Reg) (v : Word) : Prop :=
  ∃ t, exec i s = .next t ∧ t.reg d = v ∧ Retires s t len (s.regBytes d)

/-- Instruction i retires and changes nothing else. -/
def Skips (i : Instr) (s : State) (len : Nat) : Prop := ∃ t, exec i s = .next t ∧ Retires s t len noBytes

/-- Instruction i sets predicate e to b and retires: of the other predicates and registers none changes; a write to p0 is
lost (R20, R48). -/
def WritesPred (i : Instr) (s : State) (e : BitVec 3) (b : Bool) : Prop :=
  ∃ t, exec i s = .next t ∧ Retires s t 4 s.predBytes ∧ t.pred e = (e = 0 || b)
    ∧ ∀ k, k ≠ e → t.pred k = s.pred k

/-- Instruction i puts the acting context out of the rotation to wait, and changes nothing else (R236). -/
def Waits (i : Instr) (s : State) (w : Wait) : Prop :=
  ∃ t, exec i s = .next t ∧ t.me = { s.me with mode := .waiting w } ∧ Frame s t noBytes
    ∧ t.core s.tf.core = (s.core s.tf.core).leaveRotation s.tf.n

/-- Instruction i waits and goes on later, with the guard and the registers it has read (R23, R36): the acting context leaves the
rotation, and nothing else changes. -/
def Pauses (i : Instr) (s : State) (w : Wait) : Prop :=
  ∃ t regs, exec i s = .next t ∧ t.me = { s.me with mode := .waiting w, held := some regs } ∧ Frame s t noBytes
    ∧ (∀ r : Reg, t.reg r = s.reg r) ∧ t.core s.tf.core = (s.core s.tf.core).leaveRotation s.tf.n

/-- Instruction i issues, and event `ev` on operand `o` then completes it: `k` is what the event makes of the state that the issue
leaves. -/
def Completes (i : Instr) (s : State) (ev : Instr) (o : Operand) (k : State → State) : Prop :=
  ∃ u, exec i s = .next u ∧ exec ev { u with ev := o } = .next (k { u with ev := o })

/-- Instruction i goes on at `pc`, after n forfeited turns, and writes the bytes of `touched` beside (R25, R38). -/
def JumpsTo (i : Instr) (s t : State) (pc : Word) (n : Nat) (touched : Nat → Prop) : Prop :=
  exec i s = .next t ∧ Frame s t touched ∧ t.me.pc = pc ∧ t.me.cur = none
    ∧ t.me.mode = (if n = 0 then .ready else .waiting (.until (s.wcc + 4 * n) false))

/-- What an instruction of the FP pipeline leaves: rd := v, and with `sub` the normaliser's turns (R54, R226). -/
def State.floatDone (s : State) (d : Reg) (v : Word) (sub : Bool) : State :=
  let t := (s.setReg d v).retire 4
  if sub then t.useNormaliser else t

/-- Instruction i takes a precise trap (R37, R327). -/
def Traps (i : Instr) (s : State) (cause detail : Nat) (addr : Word) : Prop :=
  exec i s = .next (s.trap cause detail addr)

/-! ## Stream words -/

/-- The acting stream belongs to job j, whose record is v. -/
structure State.OnJob (s : State) (j : Nat) (v : Job) : Prop where
  pipe : (s.pipe s.sf.pipe).job = some j
  job : s.jobs.get? j = some v

/-- The acting stream may launch i with `pops` operands (R113, R116, R190, R200): the word is legal, the last operation's
interval and stretch are over, the bound of a redirect is kept, and the operands stand on the stack. -/
structure State.MayLaunch (s : State) (j : Nat) (v : Job) (i : Instr) (pops : Nat) : Prop where
  onJob : s.OnJob j v
  wf : i.wf = true
  due : s.st.last + s.st.lastInterval + s.st.lastStretch ≤ s.st.next
  bound : ∀ b, s.st.bound = some b → (b : Int) ≤ actualStamp v s.st
  depth : pops ≤ s.st.stack.length

/-- A stream after the issue of a launch word of interval n: LAST = NEXT, and decoding resumes in the next cycle (R114 to
R116). -/
def Stream.issued (t : Stream) (n : Nat) : Stream :=
  { t with last := t.next, lastInterval := n, lastStretch := 0, stamped := false, bound := none, budget := 4,
           dec := if t.dec = .ended then .ended else .decoding }

/-- The acting stream without its top n operands. -/
def State.popped (s : State) (n : Nat) : State := s.modSt fun t => { t with stack := t.stack.drop n }

/-- Stream word i leaves l on its stack, and nothing else changes (R113). -/
def Stacks (i : Instr) (s : State) (l : List Word) : Prop := exec i s = .next (s.modSt fun t => { t with stack := l })

/-- Launch word i issues with interval n and leaves u beside. -/
def Launches (i : Instr) (s : State) (n : Nat) (u : State) : Prop := exec i s = .next (u.modSt fun t => t.issued n)

/-- Stream word i raises a fault of its job on its stream (R119). -/
def Raises (i : Instr) (s : State) (j : Nat) (v : Job) (code detail : Nat) : Prop :=
  exec i s = .next (s.raiseAt j v s.sf code detail)

/-- Launch word i puts an operation that satisfies `what` into flight on its pipe and issues with interval n; data that is late
or in the horizon of an AWAIT is a fault instead (R141, R193). `ec` is what the operation reads beside its plan; what it reads and what it writes
are noted with it (R193, R336). -/
def Operates (i : Instr) (s : State) (j : Nat) (v : Job) (pops n : Nat) (ec : List Range) (what : Op → Prop) : Prop :=
  ∃ (op : Op) (dsts : List Range), op.word = i ∧ op.job = j ∧ op.args = s.st.stack.take pops ∧ op.eng = s.sf.eng
    ∧ op.issue = s.clock v s.sf.pipe ∧ op.interval = n ∧ op.rel = 0 ∧ what op
    ∧ (s.readFault j v op.issue (readRanges s.sf.pipe op ec) = none → ∃ t id, exec i s = .next t
        ∧ (t.pipe s.sf.pipe).ops.get? id = some { op with reads := readRanges s.sf.pipe op ec, dsts := dsts } ∧ t.st = (s.popped pops).st.issued n)
    ∧ (∀ c d, s.readFault j v op.issue (readRanges s.sf.pipe op ec) = some (c, d) → Raises i s j v c d)

end Sys2Proof.Machine
end

