-- ==== Sys2Proof/Certificates/Slice0/Obligations.lean ====
section
/-! DEFINITION. The statements for the provers. They come from the numbered rules of spec/; the premise `Enabled` says that the
guard holds and that the pool is in its canonical form, which EveryStepKeepsTheMemories shows every step to keep. A statement
that is a conjunction of claims has them as definitions under Claim. -/

open Sys2Proof Sys2Proof.Machine

/-! ## Integer instructions (R39 to R48) -/

/-- R40, without the divisions: the results of major 0x01. -/
def Obligations.IntegerArithmeticResults : Prop :=
  ∀ (s : State) (g : Guard) (d a b : Reg), s.Enabled g →
    WritesReg (.add g d a b) s 4 d (s.reg a + s.reg b)
    ∧ WritesReg (.sub g d a b) s 4 d (s.reg a - s.reg b)
    ∧ WritesReg (.mul g d a b) s 4 d (s.reg a * s.reg b)
    ∧ WritesReg (.mulhI64 g d a b) s 4 d
        (((s.reg a).signExtend 128 * (s.reg b).signExtend 128).extractLsb' 64 64)
    ∧ WritesReg (.mulhN64 g d a b) s 4 d
        (((s.reg a).zeroExtend 128 * (s.reg b).zeroExtend 128).extractLsb' 64 64)
    ∧ (∃ v, WritesReg (.addsatI64 g d a b) s 4 d v
        ∧ v.toInt = max (-2 ^ 63) (min (2 ^ 63 - 1) ((s.reg a).toInt + (s.reg b).toInt)))
    ∧ (∃ v, WritesReg (.subsatI64 g d a b) s 4 d v
        ∧ v.toInt = max (-2 ^ 63) (min (2 ^ 63 - 1) ((s.reg a).toInt - (s.reg b).toInt)))
    ∧ WritesReg (.abs g d a) s 4 d (if BitVec.slt (s.reg a) 0 then 0 - s.reg a else s.reg a)
    ∧ WritesReg (.neg g d a) s 4 d (0 - s.reg a)

/-- R41: the fixed results of division, and the quotient and remainder of every other pair. -/
def Obligations.DivisionResults : Prop :=
  ∀ (s : State) (g : Guard) (d a b : Reg), s.Enabled g →
    let x := s.reg a
    let y := s.reg b
    let done (v : Word) : State := ((s.setReg d v).retire 4).useDivider 64 15 false
    ∃ q r qu ru : Word,
      exec (.divI64 g d a b) s = .next (done q) ∧ exec (.remI64 g d a b) s = .next (done r)
      ∧ exec (.divN64 g d a b) s = .next (done qu) ∧ exec (.remN64 g d a b) s = .next (done ru)
      ∧ (y = 0 → q = 0xFFFFFFFFFFFFFFFF ∧ qu = 0xFFFFFFFFFFFFFFFF ∧ r = x ∧ ru = x)
      ∧ (x = 0x8000000000000000 ∧ y = 0xFFFFFFFFFFFFFFFF → q = x ∧ r = 0)
      ∧ (y ≠ 0 ∧ ¬(x = 0x8000000000000000 ∧ y = 0xFFFFFFFFFFFFFFFF) →
          q.toInt = Int.tdiv x.toInt y.toInt ∧ r.toInt = Int.tmod x.toInt y.toInt)
      ∧ (y ≠ 0 → qu.toNat = x.toNat / y.toNat ∧ ru.toNat = x.toNat % y.toNat)

/-- R42: logic, shifts and rotations; amounts are rb[5:0]. -/
def Claim.LogicAndShiftResults : Prop :=
  ∀ (s : State) (g : Guard) (d a b : Reg), s.Enabled g →
    let n := (s.reg b).toNat % 64
    WritesReg (.and g d a b) s 4 d (s.reg a &&& s.reg b)
    ∧ WritesReg (.or g d a b) s 4 d (s.reg a ||| s.reg b)
    ∧ WritesReg (.xor g d a b) s 4 d (s.reg a ^^^ s.reg b)
    ∧ WritesReg (.andn g d a b) s 4 d (s.reg a &&& ~~~s.reg b)
    ∧ WritesReg (.orn g d a b) s 4 d (s.reg a ||| ~~~s.reg b)
    ∧ WritesReg (.xnor g d a b) s 4 d (~~~(s.reg a ^^^ s.reg b))
    ∧ WritesReg (.shl g d a b) s 4 d (s.reg a <<< n)
    ∧ WritesReg (.shr g d a b) s 4 d (s.reg a >>> n)
    ∧ WritesReg (.sar g d a b) s 4 d ((s.reg a).sshiftRight n)
    ∧ WritesReg (.rol g d a b) s 4 d (s.reg a <<< n ||| s.reg a >>> (64 - n))
    ∧ WritesReg (.ror g d a b) s 4 d (s.reg a >>> n ||| s.reg a <<< (64 - n))

/-- R42: the bit counts and reversals, by what they count. -/
def Claim.BitCountResults : Prop :=
  ∀ (s : State) (g : Guard) (d a : Reg), s.Enabled g →
    let x := s.reg a
    (∃ v : Word, WritesReg (.clz g d a) s 4 d v ∧ v.toNat ≤ 64
        ∧ (∀ i, i < v.toNat → x.getLsbD (63 - i) = false) ∧ (v.toNat < 64 → x.getLsbD (63 - v.toNat) = true))
    ∧ (∃ v : Word, WritesReg (.ctz g d a) s 4 d v ∧ v.toNat ≤ 64
        ∧ (∀ i, i < v.toNat → x.getLsbD i = false) ∧ (v.toNat < 64 → x.getLsbD v.toNat = true))
    ∧ (∃ v : Word, WritesReg (.popc g d a) s 4 d v ∧ v.toNat = ((List.range 64).filter fun i => x.getLsbD i).length)
    ∧ (∃ v : Word, WritesReg (.brev g d a) s 4 d v ∧ ∀ i, i < 64 → v.getLsbD i = x.getLsbD (63 - i))
    ∧ (∃ v : Word, WritesReg (.bswap g d a) s 4 d v
        ∧ ∀ i, i < 8 → v.extractLsb' (8 * i) 8 = x.extractLsb' (8 * (7 - i)) 8)

/-- R42: logic, shifts, rotations, bit counts and reversals. -/
def Obligations.LogicShiftAndBitResults : Prop := Claim.LogicAndShiftResults ∧ Claim.BitCountResults

/-- R43 and R44: minimum, maximum, extension, move, select, scaled address add. -/
def Claim.MoveSelectResults : Prop :=
  ∀ (s : State) (g : Guard) (d a b : Reg) (k : BitVec 3) (n : BitVec 2), s.Enabled g →
    let x := s.reg a
    let y := s.reg b
    WritesReg (.minI64 g d a b) s 4 d (if x.toInt ≤ y.toInt then x else y)
    ∧ WritesReg (.maxI64 g d a b) s 4 d (if y.toInt ≤ x.toInt then x else y)
    ∧ WritesReg (.minN64 g d a b) s 4 d (if x.toNat ≤ y.toNat then x else y)
    ∧ WritesReg (.maxN64 g d a b) s 4 d (if y.toNat ≤ x.toNat then x else y)
    ∧ WritesReg (.sextI8 g d a) s 4 d ((x.truncate 8).signExtend 64)
    ∧ WritesReg (.sextI16 g d a) s 4 d ((x.truncate 16).signExtend 64)
    ∧ WritesReg (.sextI32 g d a) s 4 d ((x.truncate 32).signExtend 64)
    ∧ WritesReg (.zextN8 g d a) s 4 d (x &&& 0xFF)
    ∧ WritesReg (.zextN16 g d a) s 4 d (x &&& 0xFFFF)
    ∧ WritesReg (.zextN32 g d a) s 4 d (x &&& 0xFFFFFFFF)
    ∧ WritesReg (.mov g d a) s 4 d x
    ∧ WritesReg (.sel g d a b k) s 4 d (if s.pred k then x else y)
    ∧ WritesReg (.lea g d a b n) s 4 d (x + y * BitVec.ofNat 64 (2 ^ n.toNat))

/-- R45, R46 and R26: immediate forms, the pairs of a prefix, and shifts by a constant. -/
def Claim.ImmediateResults : Prop :=
  ∀ (s : State) (g : Guard) (d a : Reg) (i : BitVec 14) (l : BitVec 32) (n : BitVec 6), s.Enabled g →
    let x := s.reg a
    WritesReg (.addi g d a i) s 4 d (x + i.signExtend 64)
    ∧ WritesReg (.andi g d a i) s 4 d (x &&& i.zeroExtend 64)
    ∧ WritesReg (.ori g d a i) s 4 d (x ||| i.zeroExtend 64)
    ∧ WritesReg (.xori g d a i) s 4 d (x ^^^ i.zeroExtend 64)
    ∧ WritesReg (.movi g d i) s 4 d (i.signExtend 64)
    ∧ WritesReg (.inshi g d i) s 4 d (i.zeroExtend 32 ++ (s.reg d).truncate 32)
    ∧ WritesReg (.muli g d a i) s 4 d (x * i.signExtend 64)
    ∧ WritesReg (.addiLong g d a l) s 8 d (x + l.signExtend 64)
    ∧ WritesReg (.andiLong g d a l) s 8 d (x &&& l.zeroExtend 64)
    ∧ WritesReg (.oriLong g d a l) s 8 d (x ||| l.zeroExtend 64)
    ∧ WritesReg (.xoriLong g d a l) s 8 d (x ^^^ l.zeroExtend 64)
    ∧ WritesReg (.moviLong g d l) s 8 d (l.signExtend 64)
    ∧ WritesReg (.inshiLong g d l) s 8 d (l ++ (s.reg d).truncate 32)
    ∧ WritesReg (.muliLong g d a l) s 8 d (x * l.signExtend 64)
    ∧ WritesReg (.shli g d a n) s 4 d (x <<< n.toNat)
    ∧ WritesReg (.shri g d a n) s 4 d (x >>> n.toNat)
    ∧ WritesReg (.sari g d a n) s 4 d (x.sshiftRight n.toNat)
    ∧ WritesReg (.rori g d a n) s 4 d (x >>> n.toNat ||| x <<< (64 - n.toNat))

/-- R43 to R46 and R26: minimum to scaled add, and the immediate forms. -/
def Obligations.MoveAndImmediateResults : Prop := Claim.MoveSelectResults ∧ Claim.ImmediateResults

/-- R47 and R48: compares and predicate instructions; codes 10 to 15 of CMP and CMPI are illegal (R27). -/
def Obligations.CompareAndPredicateResults : Prop :=
  ∀ (s : State) (g : Guard) (e f h : BitVec 3) (d a b : Reg) (i : BitVec 10), s.Enabled g →
    (∀ (w : BitVec 1) (c : BitVec 4), 10 ≤ c.toNat → Traps (.cmp g e a b w c) s 1 0 0 ∧ Traps (.cmpi g e a c i) s 1 0 0) ∧
    let x := s.reg a
    let y := s.reg b
    let sx := i.signExtend 64
    let lo (v : Word) : BitVec 32 := v.truncate 32
    WritesPred (.cmp g e a b 0 0) s e (x == y) ∧ WritesPred (.cmp g e a b 0 1) s e (x != y)
    ∧ WritesPred (.cmp g e a b 0 2) s e (decide (x.toInt < y.toInt))
    ∧ WritesPred (.cmp g e a b 0 3) s e (decide (x.toInt ≤ y.toInt))
    ∧ WritesPred (.cmp g e a b 0 4) s e (decide (y.toInt < x.toInt))
    ∧ WritesPred (.cmp g e a b 0 5) s e (decide (y.toInt ≤ x.toInt))
    ∧ WritesPred (.cmp g e a b 0 6) s e (decide (x.toNat < y.toNat))
    ∧ WritesPred (.cmp g e a b 0 7) s e (decide (x.toNat ≤ y.toNat))
    ∧ WritesPred (.cmp g e a b 0 8) s e (decide (y.toNat < x.toNat))
    ∧ WritesPred (.cmp g e a b 0 9) s e (decide (y.toNat ≤ x.toNat))
    ∧ WritesPred (.cmp g e a b 1 0) s e (lo x == lo y) ∧ WritesPred (.cmp g e a b 1 1) s e (lo x != lo y)
    ∧ WritesPred (.cmp g e a b 1 2) s e (decide ((lo x).toInt < (lo y).toInt))
    ∧ WritesPred (.cmp g e a b 1 3) s e (decide ((lo x).toInt ≤ (lo y).toInt))
    ∧ WritesPred (.cmp g e a b 1 4) s e (decide ((lo y).toInt < (lo x).toInt))
    ∧ WritesPred (.cmp g e a b 1 5) s e (decide ((lo y).toInt ≤ (lo x).toInt))
    ∧ WritesPred (.cmp g e a b 1 6) s e (decide ((lo x).toNat < (lo y).toNat))
    ∧ WritesPred (.cmp g e a b 1 7) s e (decide ((lo x).toNat ≤ (lo y).toNat))
    ∧ WritesPred (.cmp g e a b 1 8) s e (decide ((lo y).toNat < (lo x).toNat))
    ∧ WritesPred (.cmp g e a b 1 9) s e (decide ((lo y).toNat ≤ (lo x).toNat))
    ∧ WritesPred (.cmpi g e a 0 i) s e (x == sx) ∧ WritesPred (.cmpi g e a 1 i) s e (x != sx)
    ∧ WritesPred (.cmpi g e a 2 i) s e (decide (x.toInt < i.toInt))
    ∧ WritesPred (.cmpi g e a 3 i) s e (decide (x.toInt ≤ i.toInt))
    ∧ WritesPred (.cmpi g e a 4 i) s e (decide (i.toInt < x.toInt))
    ∧ WritesPred (.cmpi g e a 5 i) s e (decide (i.toInt ≤ x.toInt))
    ∧ WritesPred (.cmpi g e a 6 i) s e (decide (x.toNat < sx.toNat))
    ∧ WritesPred (.cmpi g e a 7 i) s e (decide (x.toNat ≤ sx.toNat))
    ∧ WritesPred (.cmpi g e a 8 i) s e (decide (sx.toNat < x.toNat))
    ∧ WritesPred (.cmpi g e a 9 i) s e (decide (sx.toNat ≤ x.toNat))
    ∧ WritesPred (.pand g e f h) s e (s.pred f && s.pred h)
    ∧ WritesPred (.por g e f h) s e (s.pred f || s.pred h)
    ∧ WritesPred (.pxor g e f h) s e (s.pred f != s.pred h)
    ∧ WritesPred (.pandn g e f h) s e (s.pred f && !s.pred h)
    ∧ WritesPred (.pnot g e f) s e (!s.pred f)
    ∧ (∃ v : Word, WritesReg (.rdp g d) s 4 d v ∧ ∀ k : Nat, v.getLsbD k = (decide (k < 8) && s.pred (BitVec.ofNat 3 k)))
    ∧ (∃ t, exec (.wrp g a) s = .next t ∧ Retires s t 4 s.predBytes
        ∧ ∀ k : BitVec 3, t.pred k = (k = 0 || x.getLsbD k.toNat))

/-! ## Guards and illegal words (R23, R24) -/

/-- R23: a legal word whose guard is false writes nothing, raises no fault, and the thread goes on after it. BR, which
predicts, is in BranchesAndCalls. -/
def Claim.FalseGuardOnlyAdvances : Prop :=
  ∀ (i : Instr) (s : State) (g : Guard) (len : Nat), i.guard? = some (g, len) → i.legalAt s →
    (∀ h d, i ≠ .br g h d) → s.Issues → s.guardHolds g = false → Skips i s len

/-- R24 and R23: a thread word that is not legal traps as illegal-instruction, whatever its guard; a word that decodes to
none does too. -/
def Claim.IllegalWordsTrap : Prop :=
  ∀ (i : Instr) (s : State), i.guard?.isSome ∨ i = .illegalInstruction → i.legalAt s = false ∨ i = .illegalInstruction →
    Traps i s 1 0 0

/-- R23, R24, R27: false guards and illegal words. -/
def Obligations.GuardsAndLegality : Prop := Claim.FalseGuardOnlyAdvances ∧ Claim.IllegalWordsTrap

/-! ## Floating point (R49 to R55) -/

/-- R49: the conditions of FCMP on the values of the operands. -/
def Claim.FloatCompareConditions : Prop :=
  ∀ x y : FVal,
    ((x.isNan || y.isNan) = true → floatCompare 0 x y = false ∧ floatCompare 1 x y = false ∧ floatCompare 2 x y = false
      ∧ floatCompare 3 x y = true ∧ floatCompare 4 x y = true)
    ∧ ((x.isNan || y.isNan) = false → floatCompare 3 x y = false ∧ floatCompare 4 x y = !floatCompare 0 x y
      ∧ floatCompare 2 x y = (floatCompare 0 x y || floatCompare 1 x y) ∧ floatCompare 1 x y = floatCompare 5 y x)
    ∧ (∀ (p q : Bool) (e f : Int), floatCompare 0 (.fin p 0 e) (.fin q 0 f) = true)

/-- R50: rounding an exactly representable value gives that value back, in every direction: a pattern of a format that is no
NaN is recovered from its value. -/
def Obligations.RoundingIsExactOnTheFormat : Prop :=
  ∀ (f : FloatFmt) (rm : Rounding) (v : Nat), f = f64 ∨ f = f32 ∨ f = bf16 ∨ f = f16 → v < 2 ^ (f.signBit + 1) →
    f.isNan v = false → f.round rm (f.value v) = v

/-- R50 to R55: the results of the scalar floating-point instructions, the normaliser's turns where a subnormal is met
(R54), and the divider (R38, R55). The .f32 forms read bits [31:0] and write rd[63:32] as zero. -/
def Claim.FloatResults : Prop :=
  ∀ (s : State) (g : Guard) (d a b : Reg) (r : BitVec 2) (e : BitVec 3) (c : BitVec 3), s.Enabled g →
    let rm := roundingOf r
    let x := (s.reg a).toNat
    let y := (s.reg b).toNat
    let z := (s.reg d).toNat
    let x4 := x % 2 ^ 32
    let y4 := y % 2 ^ 32
    let z4 := z % 2 ^ 32
    let sub (h : FloatFmt) (l : List Nat) : Bool := l.any h.isSub
    exec (.faddF64 g d a b r) s = .next (s.floatDone d (toWord (f64.add rm x y)) (sub f64 [x, y] || f64.addTiny rm x y))
    ∧ exec (.faddF32 g d a b r) s = .next (s.floatDone d (toWord (f32.add rm x4 y4)) (sub f32 [x4, y4] || f32.addTiny rm x4 y4))
    ∧ exec (.fsubF64 g d a b r) s = .next (s.floatDone d (toWord (f64.sub rm x y))
        (sub f64 [x, y] || f64.tiny ((f64.value x).add rm (f64.value y).neg)))
    ∧ exec (.fsubF32 g d a b r) s = .next (s.floatDone d (toWord (f32.sub rm x4 y4))
        (sub f32 [x4, y4] || f32.tiny ((f32.value x4).add rm (f32.value y4).neg)))
    ∧ exec (.fmulF64 g d a b r) s = .next (s.floatDone d (toWord (f64.mul rm x y))
        (sub f64 [x, y] || f64.tiny ((f64.value x).mul (f64.value y))))
    ∧ exec (.fmulF32 g d a b r) s = .next (s.floatDone d (toWord (f32.mul rm x4 y4))
        (sub f32 [x4, y4] || f32.tiny ((f32.value x4).mul (f32.value y4))))
    ∧ exec (.fmaF64 g d a b r) s = .next (s.floatDone d (toWord (f64.fma rm z x y))
        (sub f64 [x, y, z] || f64.tiny ((f64.value z).add rm ((f64.value x).mul (f64.value y)))))
    ∧ exec (.fmaF32 g d a b r) s = .next (s.floatDone d (toWord (f32.fma rm z4 x4 y4))
        (sub f32 [x4, y4, z4] || f32.tiny ((f32.value z4).add rm ((f32.value x4).mul (f32.value y4)))))
    ∧ exec (.fdivF64 g d a b r) s = .next (((s.setReg d (toWord (f64.div rm x y))).retire 4).useDivider 32 7
        (sub f64 [x, y] || f64.divTiny x y))
    ∧ exec (.fdivF32 g d a b r) s = .next (((s.setReg d (toWord (f32.div rm x4 y4))).retire 4).useDivider 16 3
        (sub f32 [x4, y4] || f32.divTiny x4 y4))
    ∧ exec (.fsqrtF64 g d a r) s = .next (((s.setReg d (toWord (f64.sqrt rm x))).retire 4).useDivider 32 7 (f64.isSub x))
    ∧ exec (.fsqrtF32 g d a r) s = .next (((s.setReg d (toWord (f32.sqrt rm x4))).retire 4).useDivider 16 3 (f32.isSub x4))
    ∧ WritesReg (.fminF64 g d a b) s 4 d (toWord (f64.min x y)) ∧ WritesReg (.fminF32 g d a b) s 4 d (toWord (f32.min x4 y4))
    ∧ WritesReg (.fmaxF64 g d a b) s 4 d (toWord (f64.max x y)) ∧ WritesReg (.fmaxF32 g d a b) s 4 d (toWord (f32.max x4 y4))
    ∧ WritesReg (.fabsF64 g d a) s 4 d (s.reg a &&& 0x7FFFFFFFFFFFFFFF)
    ∧ WritesReg (.fabsF32 g d a) s 4 d (s.reg a &&& 0x7FFFFFFF)
    ∧ WritesReg (.fnegF64 g d a) s 4 d (s.reg a ^^^ 0x8000000000000000)
    ∧ WritesReg (.fnegF32 g d a) s 4 d ((s.reg a &&& 0xFFFFFFFF) ^^^ 0x80000000)
    ∧ (c.toNat ≤ 4 → WritesPred (.fcmp g e a b 0 c) s e (floatCompare c.toNat (f64.value x) (f64.value y))
        ∧ WritesPred (.fcmp g e a b 1 c) s e (floatCompare c.toNat (f32.value x4) (f32.value y4)))

/-- R53: CVT. Types: 0 i32, 1 i64, 2 n32, 3 n64, 4 f32, 5 f64, 6 bf16. An integer becomes the rounded float; a float becomes
the integer of its direction, saturated, a NaN 0. -/
def Claim.ConvertResults : Prop :=
  ∀ (s : State) (g : Guard) (d a : Reg) (r : BitVec 2) (src dst : BitVec 4), s.Enabled g → cvtLegal r src dst = true →
    let w := s.reg a
    let out := convert (roundingOf r) src.toNat dst.toNat w
    exec (.cvt g d a r src dst) s = .next (s.floatDone d out.1 out.2)
    ∧ (src = 1 ∧ dst = 5 → out = (toWord (f64.round (roundingOf r) (.ofInt w.toInt)), false))
    ∧ (src = 3 ∧ dst = 5 → out = (toWord (f64.round (roundingOf r) (.ofInt w.toNat)), false))
    ∧ (src = 5 ∧ dst = 1 → out.1.toInt = (f64.value w.toNat).toIntSat (roundingOf r) (-2 ^ 63) (2 ^ 63 - 1))
    ∧ (src = 5 ∧ dst = 3 → (out.1.toNat : Int) = (f64.value w.toNat).toIntSat (roundingOf r) 0 (2 ^ 64 - 1))
    ∧ (src = 5 ∧ dst = 0 → out.1.toInt = (f64.value w.toNat).toIntSat (roundingOf r) (-2 ^ 31) (2 ^ 31 - 1))

/-- R49 to R55: compares, arithmetic and conversions. -/
def Obligations.FloatingPointResults : Prop := Claim.FloatCompareConditions ∧ Claim.FloatResults ∧ Claim.ConvertResults

/-- R38, R55 and R226: the divider and the normaliser serve one instruction at a time, in the order the contexts asked; the
forfeited turns count from the cycle in which the unit serves. A division that meets a subnormal asks for the normaliser after its
turns (R54; the order of the two units is the model's choice, log 81). -/
def Claim.SharedUnitsServeOrQueue : Prop :=
  ∀ (s : State) (cycles turns : Nat) (norm : Bool), 0 < turns →
    let c := s.core s.tf.core
    (c.divBusy ≤ s.wcc ∧ c.divQueue = [] →
      ((s.useDivider cycles turns norm).core s.tf.core).divBusy = s.wcc + cycles
      ∧ (s.useDivider cycles turns norm).me.mode = .waiting (.until (s.wcc + 4 * turns) norm))
    ∧ (¬(c.divBusy ≤ s.wcc ∧ c.divQueue = []) →
      ((s.useDivider cycles turns norm).core s.tf.core).divQueue = c.divQueue ++ [(s.tf.n, cycles)]
      ∧ (s.useDivider cycles turns norm).me.mode = .waiting (.unit .divider turns norm))
    ∧ (c.normBusy ≤ s.wcc ∧ c.normQueue = [] →
      (s.useNormaliser.core s.tf.core).normBusy = s.wcc + 4
      ∧ s.useNormaliser.me.mode = .waiting (.until (s.wcc + 12) false))
    ∧ (¬(c.normBusy ≤ s.wcc ∧ c.normQueue = []) →
      (s.useNormaliser.core s.tf.core).normQueue = c.normQueue ++ [s.tf.n]
      ∧ s.useNormaliser.me.mode = .waiting (.unit .normaliser 3 false))

/-! ## Lane ops (R56 to R62) -/

/-- R58 and R59: what the lanes compute: every element of the result from the elements of the sources as they were before any
write, integer lanes modulo their width, sums bracketed in pairs. -/
def Claim.LaneElements : Prop :=
  ∀ (s : State) (z x y : Nat) (i : Nat), s.pool.wf → i < 8 →
    let at_ (st : State) (off e k : Nat) : Nat := st.pool.num (s.tf.core.poolBase + off + k * e) e
    (∀ (f : LaneFn) (t : Nat), t ≤ 10 →
      let e := laneSize t
      at_ (runLanes f t s [z, x, y]).1 z e i
        = (lane f t (at_ s z e i) (at_ s x e i) (at_ s y e i)).1 % 256 ^ e)
    ∧ (∀ t, t ≤ 7 →
      let e := laneSize t
      let p (k : Nat) : Nat := at_ s x e k
      at_ (runReduce false t s [z, x]).1 z e 0 = (p 0 + p 1 + p 2 + p 3 + p 4 + p 5 + p 6 + p 7) % 256 ^ e
      ∧ at_ (runReduce true t s [z, x, y]).1 z e 0
        = ((List.range 8).map fun k => p k * at_ s y e k).sum % 256 ^ e)

/-- R56, R57, R61, R62: a lane op whose operands pass the checks of R57 runs on the core that holds them: the earlier stores
of its context to pools are performed, the elements are computed, each pointer register advances once. -/
def Claim.LaneOpsComplete : Prop :=
  ∀ (s : State) (g : Guard) (d a b : Reg) (t : BitVec 4) (offs : List Nat), s.guardHolds g = true →
    let e := laneSize t.toNat
    let three (dlen : Nat) := laneOps3 dlen (8 * e) d a b s
    let two (dlen : Nat) := laneOps2 dlen (8 * e) d a s
    let done (ops : List LaneOperand) (run : State → List Nat → State × Bool) : Out :=
      let r := run (s.flushPool s.tf) offs
      let runs := List.zip offs (ops.map fun o => o.len)
      r.1.endLane ops (match ops, offs with
        | o :: _, f :: _ => laneStalls (f, o.len) (runs.drop 1)
        | _, _ => 0) r.2
    let good (ops : List LaneOperand) : Prop := s.laneCheck e ops = .ok (s.tf.core, offs)
    (t.toNat ≤ 10 → good (three (8 * e)) →
      exec (.lnadd g d a b t) s = done (three (8 * e)) (runLanes .add t.toNat)
      ∧ exec (.lnsub g d a b t) s = done (three (8 * e)) (runLanes .sub t.toNat)
      ∧ exec (.lnmul g d a b t) s = done (three (8 * e)) (runLanes .mul t.toNat)
      ∧ exec (.lnmin g d a b t) s = done (three (8 * e)) (runLanes .min t.toNat)
      ∧ exec (.lnmax g d a b t) s = done (three (8 * e)) (runLanes .max t.toNat)
      ∧ exec (.lnfma g d a b t) s = done (three (8 * e)) (runLanes .fma t.toNat))
    ∧ (t.toNat ≤ 7 → good (three (8 * e)) →
      exec (.lnand g d a b t) s = done (three (8 * e)) (runLanes .and t.toNat)
      ∧ exec (.lnor g d a b t) s = done (three (8 * e)) (runLanes .or t.toNat)
      ∧ exec (.lnxor g d a b t) s = done (three (8 * e)) (runLanes .xor t.toNat))
    ∧ (t.toNat ≤ 10 → good (two (8 * e)) → exec (.lncpy g d a t) s = done (two (8 * e)) (runLanes .cpy t.toNat))
    ∧ (t.toNat ≤ 10 → good (two e) → exec (.lnsum g d a t) s = done (two e) (runReduce false t.toNat))
    ∧ (t.toNat ≤ 10 → good (three e) → exec (.lndot g d a b t) s = done (three e) (runReduce true t.toNat))
    ∧ (∀ (c : Nat) (x : Word), t.toNat ≤ 10 →
      (s.laneCheck e (three (8 * e)) = .error (c, x) → Traps (.lnadd g d a b t) s c 0 x ∧ Traps (.lnfma g d a b t) s c 0 x)
      ∧ (s.laneCheck e (two (8 * e)) = .error (c, x) → Traps (.lncpy g d a t) s c 0 x)
      ∧ (s.laneCheck e (two e) = .error (c, x) → Traps (.lnsum g d a t) s c 0 x)
      ∧ (s.laneCheck e (three e) = .error (c, x) → Traps (.lndot g d a b t) s c 0 x))
    ∧ (∀ (st : State) (ops : List LaneOperand) (sub : Bool), st.endLane ops 0 sub
        = .next (if sub then ((st.advance ops).retire 4).useNormaliser else (st.advance ops).retire 4))

/-- R56 to R62: the lane ops. -/
def Obligations.LaneOps : Prop := Claim.LaneElements ∧ Claim.LaneOpsComplete

/-! ## Branches, counters, follow groups, ending (R63 to R72) -/

/-- R25, R63 to R65: targets, the link register, mis-hinted and register branches, misaligned targets, and a fetch that fails, which
traps with the cause of its translation. -/
def Obligations.BranchesAndCalls : Prop :=
  ∀ (s : State) (g : Guard) (a : Reg) (h : BitVec 2) (d : BitVec 20), s.pool.wf →
    let pc := s.me.pc
    let target := pc + BitVec.ofInt 64 (4 * d.toInt)
    let near := decide (-64 ≤ d.toInt) && decide (d.toInt ≤ -1)
    let lost (taken : Bool) : Nat :=
      if h = 0 then (if taken then 1 else 0) else if h = 1 then (if taken then 0 else 1)
      else if near || taken then 0 else 1
    (h ≠ 3 → s.guardHolds g = true → ∃ t, JumpsTo (.br g h d) s t target (lost true) noBytes)
    ∧ (h ≠ 3 → s.guardHolds g = false → ∃ t, JumpsTo (.br g h d) s t (pc + 4) (lost false) noBytes)
    ∧ (s.guardHolds g = true →
      (∃ t, JumpsTo (.call g d) s t target 0 (s.regBytes 15) ∧ t.reg 15 = pc + 4)
      ∧ ((s.reg 15).toNat % 4 = 0 → ∃ t, JumpsTo (.ret g) s t (s.reg 15) 1 noBytes)
      ∧ ((s.reg a).toNat % 4 = 0 → (∃ t, JumpsTo (.jmpi g a) s t (s.reg a) 1 noBytes)
        ∧ ∃ t, JumpsTo (.calli g a) s t (s.reg a) 1 (s.regBytes 15) ∧ t.reg 15 = pc + 4)
      ∧ ((s.reg 15).toNat % 4 ≠ 0 → Traps (.ret g) s 2 0 (s.reg 15))
      ∧ ((s.reg a).toNat % 4 ≠ 0 → Traps (.jmpi g a) s 2 0 (s.reg a) ∧ Traps (.calli g a) s 2 0 (s.reg a)))
    ∧ (∀ c, s.codeBytes s.tf = .error c → Traps .fetchFault s c 0 pc)

/-- R66, R67, R72 and R237: WAITC, RDCYC and YIELD. -/
def Obligations.CountersAndYield : Prop :=
  ∀ (s : State) (g : Guard) (d a : Reg) (k : BitVec 3), s.Enabled g →
    let p := s.part ⟨s.memDev s.tf, k.toNat⟩
    let v := (s.reg a).toNat
    (p.formed = true → v ≤ p.pcc → Skips (.waitcPcc g a k) s 4)
    ∧ (p.formed = true → p.pcc < v → Waits (.waitcPcc g a k) s (.counter (some k.toNat) (s.reg a)))
    ∧ (p.formed = false → Traps (.waitcPcc g a k) s 12 0 0)
    ∧ (v ≤ s.wcc → Skips (.waitcWcc g a) s 4)
    ∧ (s.wcc < v → Waits (.waitcWcc g a) s (.counter none (s.reg a)))
    ∧ WritesReg (.rdcycPcc g d k) s 4 d (if p.formed then BitVec.ofNat 64 p.pcc else 0)
    ∧ WritesReg (.rdcycWcc g d) s 4 d (BitVec.ofNat 64 s.wcc)
    ∧ (∃ t, exec (.yield g) s = .next t ∧ Frame s t noBytes
        ∧ t.me = s.me.retired s.wcc 4
        ∧ (t.core s.tf.core).held = (let ahead := (t.core s.tf.core).rot.takeWhile fun n => n != s.tf.n
            if ahead = [] then (s.core s.tf.core).held else (s.core s.tf.core).held ++ [(s.tf.n, ahead)]))

/-- R68, R69: FOLLOW, DETACH and REJOIN, and when FOLLOW and REJOIN are refused; a thread keeps its rejoin record in its home
context. An issuer that stands in a group, a recorded leader that follows and one that travels are the model's choice (log 21). -/
def Obligations.FollowGroups : Prop :=
  ∀ (s : State) (g : Guard) (a : Reg), s.guardHolds g = true →
    let v := s.reg a
    let l : CtxRef := ⟨s.tf.core, v.toNat % 16⟩
    let fine : Prop := v.toNat < 16 ∧ l.n ≠ s.tf.n ∧ (s.ctx l).mode ≠ .free ∧ (s.ctx l).mode ≠ .away ∧ s.me.leader = none
      ∧ s.followers s.tf.core s.tf.n = [] ∧ (s.ctx l).leader = none ∧ (s.followers s.tf.core l.n).length < 3
    let beside (t : State) : Prop := t = { s with ctxs := t.ctxs, cores := t.cores }
      ∧ ∀ u : CtxRef, u.code ≠ s.tf.code → u.code ≠ (s.homeOf s.tf).code → t.ctx u = s.ctx u
    (fine → ∃ t, exec (.follow g a) s = .next t ∧ Frame s t noBytes
      ∧ t.me = { s.me.retired s.wcc 4 with leader := some l.n })
    ∧ (¬fine → Traps (.follow g a) s 13 0 0)
    ∧ (∀ k, s.me.leader = some k → ∃ t, exec (.detach g) s = .next t ∧ beside t
      ∧ t.me = { s.me.retired s.wcc 4 with leader := none, rejoin := t.me.rejoin }
      ∧ t.rejoinOf s.tf = some (s.homeOf ⟨s.tf.core, k⟩))
    ∧ (s.me.leader = none → ∃ t, exec (.detach g) s = .next t
      ∧ t.followers s.tf.core s.tf.n = [] ∧ t.pool = s.pool
      ∧ t.me = { s.me.retired s.wcc 4 with rejoin := t.me.rejoin }
      ∧ ∀ e ∈ t.ctxs, e.2.rejoin ≠ some (s.homeOf s.tf))
    ∧ (s.me.leader = none → s.followers s.tf.core s.tf.n = [] → (∀ e ∈ s.ctxs, e.2.rejoin ≠ some (s.homeOf s.tf)) →
      Skips (.detach g) s 4)
    ∧ (s.rejoinOf s.tf = none → Traps (.rejoin g) s 13 0 0)
    ∧ (∀ h, s.rejoinOf s.tf = some h → (s.ctx h).mode = .free → Traps (.rejoin g) s 13 0 0)
    ∧ (∀ h k, s.rejoinOf s.tf = some h → (s.ctx h).mode ≠ .free → s.locate h = some k →
      let refused : Prop := 3 ≤ (s.followers k.core k.n).length ∨ (s.ctx k).leader ≠ none ∨ s.me.leader ≠ none
        ∨ s.followers s.tf.core s.tf.n ≠ []
      (refused → Traps (.rejoin g) s 13 0 0)
      ∧ (¬refused → k.core = s.tf.core → ∃ t, exec (.rejoin g) s = .next t ∧ beside t ∧ t.rejoinOf s.tf = none
        ∧ t.me = { s.me.retired s.wcc 4 with leader := some k.n, rejoin := t.me.rejoin })
      ∧ (¬refused → k.core ≠ s.tf.core → exec (.rejoin g) s = travel s k.core s.me.pc 0 false))
    ∧ (∀ h, s.rejoinOf s.tf = some h → (s.ctx h).mode ≠ .free → s.locate h = none → Pauses (.rejoin g) s .again)

/-- R70, R71 and R90: HALT and HALT.retain of a context at home whose queue is empty free it; with a deferred fault recorded
they trap as update-lost and clear the record; HALT.retain keeps the core's tag, and a core whose last context halts without a
tag loses its pool. -/
def Obligations.HaltFreesTheContext : Prop :=
  ∀ (s : State) (g : Guard) (a : Reg), s.guardHolds g = true → s.me.home = none → s.me.stores = [] → s.me.updates = [] →
    (s.me.deferred = none →
      (∃ t, exec (.halt g) s = .next t ∧ t.me = Ctx.reset ∧ (t.core s.tf.core).retain = (s.core s.tf.core).retain)
      ∧ (∃ t, exec (.haltRetain g a) s = .next t ∧ t.me = Ctx.reset
        ∧ (s.reg a ≠ 0 → (t.core s.tf.core).retain = s.reg a ∧ t.pool = s.pool))
      ∧ ((s.core s.tf.core).retain = 0 → s.tf.n < 16 → (∀ k, k < 16 → k ≠ s.tf.n → (s.ctx ⟨s.tf.core, k⟩).mode = .free) →
        ∃ t, exec (.halt g) s = .next t ∧ (t.core s.tf.core).powered = false
          ∧ t.pool = s.pool.clear s.tf.core.poolBase (2 ^ 18)))
    ∧ (∀ c x, s.me.deferred = some (c, x) →
      exec (.halt g) s = .next ((s.modCtx s.tf fun v => { v with deferred := none }).trap 24 c x)
      ∧ exec (.haltRetain g a) s = .next ((s.modCtx s.tf fun v => { v with deferred := none }).trap 24 c x))

/-! ## Loads, stores and ordering (R73 to R82) -/

/-- R8, R73, R74: where an address of a thread core's context at home leads: device memory, the tier, the buffers of a pipe, the
core's own pool, another pool of its cluster; and the first check that fails. A window onto another device is classed in the
statement on translation. -/
def Obligations.AddressClasses : Prop :=
  ∀ (s : State) (va : Word) (n dev x y : Nat), s.tf.core = .thread dev x y → s.me.home = none → 0 < n →
    let a := va.toNat
    let c := s.core s.tf.core
    let top := a / 2 ^ 48
    let ok := a % n = 0
    (2 ^ 56 ≤ a → s.aim va n = .error 3)
    ∧ (a < 0x00E0000000000000 → (c.wins.find? fun w => windowCovers w va) = none →
      s.aim va n = if ok then .ok (.dram dev false false) else .error 2)
    ∧ (0xE0 ≤ top ∧ top < 0xF0 → a / 2 ^ 47 % 32 ≤ 23 → a / 2 ^ 38 % 8 = 0 →
      s.aim va n = if ok then .ok (.tier (a / 2 ^ 47 % 32) (a / 2 ^ 41 % 64) (a % 2 ^ 38)) else .error 2)
    ∧ (0xF0 ≤ top ∧ top < 0xFD → s.aim va n = .error 3)
    ∧ (top = 0xFD → 192 ≤ a / 2 ^ 32 % 2 ^ 16 → s.aim va n = .error 3)
    ∧ (top = 0xFE → a % 2 ^ 48 < c.bndS.toNat * 512 → a % 2 ^ 48 < 2 ^ 18 →
      s.aim va n = if ok then .ok (.pool s.tf.core (a % 2 ^ 48)) else .error 2)
    ∧ (top = 0xFE → c.bndS.toNat * 512 ≤ a % 2 ^ 48 → a % 2 ^ 48 < 2 ^ 18 → s.aim va n = .error (if ok then 5 else 2))
    ∧ (top = 0xFE → 2 ^ 18 ≤ a % 2 ^ 48 → s.aim va n = .error 3)
    ∧ (top = 0xFF → (128 ≤ a % 2 ^ 48 / 2 ^ 20 ∨ 2 ^ 18 ≤ a % 2 ^ 20) → s.aim va n = .error 3)
    ∧ (top = 0xFD → a / 2 ^ 32 % 2 ^ 16 < 192 →
      let pipe : PipeRef := ⟨dev, a / 2 ^ 32 % 2 ^ 16⟩
      let off := a % 2 ^ 30
      let leads (b : Buf) (size : Nat) : Prop :=
        s.aim va n = if off < size then (if ok then .ok (.window pipe (some b) off) else .error 2) else .error 3
      (a / 2 ^ 30 % 4 = 0 → leads .w 0x180000) ∧ (a / 2 ^ 30 % 4 = 1 → leads .a 0x180000) ∧ (a / 2 ^ 30 % 4 = 2 → leads .c 0x400000)
      ∧ (a / 2 ^ 30 % 4 = 3 → s.aim va n = if ok then .ok (.window pipe none off) else .error 2))
    ∧ (top = 0xFF → a % 2 ^ 48 / 2 ^ 20 < 128 → a % 2 ^ 20 < 2 ^ 18 →
      let o := clusterCore dev x y (a % 2 ^ 48 / 2 ^ 20)
      let off := a % 2 ^ 20
      let inside := off < (s.core o).bndS.toNat * 512 ∧ (o ≠ s.tf.core → (s.core o).bndW.toNat * 512 ≤ off)
      (inside → s.aim va n = if ok then .ok (.pool o off) else .error 2) ∧ (¬inside → s.aim va n = .error (if ok then 5 else 2)))

/-- The load that an instruction of a form makes, as far as it completes at once: what a load leaves, behind the queued stores to
its 8-byte word that it would pass (R75, R27, R78). -/
def Claim.LoadsComplete : Prop :=
  ∀ (s : State) (g : Guard) (d a : Reg) (z : BitVec 2) (x i : BitVec 1) (o : BitVec 10) (w : Reg), s.Enabled g →
    ¬(z = 3 ∧ x = 1) → (s.me.stores.any fun e => e.mark) = false →
    let n := memSize z
    let f : MemForm := ⟨d, a, z, x, i, o⟩
    let va := s.memAddr a z i o
    let done (f : MemForm) (va : Word) (acq : Option Nat) (y : Target) : Out :=
      let u := if passesStore s.me.stores y n then s.flushTarget s.tf y else s
      .next (u.endLoad f va acq (u.loadBytes y n))
    let level := effectiveLevel s.tf.core (scopeLevel (s.reg w))
    let q : MemForm := ⟨d, a, z, x, 0, 0⟩
    let vq := s.reg a
    (∀ off, s.aim va n = .ok (.pool s.tf.core off) → exec (.ld g d a z x i o) s = done f va none (.pool s.tf.core off))
    ∧ (∀ dev ro bs, s.aim va n = .ok (.dram dev false ro) → s.l1Bytes va n = some bs →
        passesStore (byVirtual s.me.stores) (.dram dev va.toNat va) n = false → exec (.ld g d a z x i o) s
        = .next (s.endLoad f va none (overlay (byVirtual s.me.stores) (.dram dev va.toNat va) 0 bs)))
    ∧ (∀ k inc off b, s.aim va n = .ok (.tier k inc off) → s.tierRoute s.tf k off = .go s.tf.core false →
        s.tf.core = .switch k b → s.tierCheck s.me.space k inc off = none →
        exec (.ld g d a z x i o) s = done f va none (.tier k false off))
    ∧ (∀ off, scopeLegal (s.reg w) = true → s.aim vq n = .ok (.pool s.tf.core off) →
        exec (.ldAcq g d a z x w) s = done q vq (some level) (.pool s.tf.core off))
    ∧ (∀ c, s.aim va n = .error c → Traps (.ld g d a z x i o) s c 0 va)
    ∧ (scopeLegal (s.reg w) = false → Traps (.ldAcq g d a z x w) s 7 0 0)

/-- R75, R27, R36: what a completed load leaves: rd with the value extended from its size, the advanced address register of a
post-increment, written before rd, and nothing else. -/
def Claim.LoadEffect : Prop :=
  ∀ (s : State) (d a : Reg) (z : BitVec 2) (x i : BitVec 1) (o : BitVec 10) (va : Word) (bytes : List Byte), s.pool.wf →
    bytes.length = memSize z →
    let t := s.endLoad ⟨d, a, z, x, i, o⟩ va none bytes
    let v := leNat bytes
    t.reg d = (if x = 1 then (BitVec.ofNat (8 * memSize z) v).signExtend 64 else BitVec.ofNat 64 v)
    ∧ (i = 1 → a ≠ d → t.reg a = va + BitVec.ofInt 64 (o.toInt * memSize z))
    ∧ (i = 0 → Retires s t 4 (s.regBytes d))
    ∧ (i = 1 → Retires s t 4 fun k => s.regBytes d k ∨ s.regBytes a k)
    ∧ (∀ l, 1 < l → ((s.endLoad ⟨d, a, z, x, 0, o⟩ va (some l) bytes).core s.tf.core).l1 = [])

/-- R27, R36, R75, R78: loads that complete at once, and what any completed load leaves. -/
def Obligations.LoadsAtOnce : Prop := Claim.LoadsComplete ∧ Claim.LoadEffect

/-- R77, R78, R258: a load of device memory that neither L1 nor its own queued stores serve waits out of the rotation, and the
home slice's reply completes it with its own queued bytes over those of memory. -/
def Obligations.LoadMissAndReply : Prop :=
  ∀ (s : State) (g : Guard) (d a : Reg) (z : BitVec 2) (x i : BitVec 1) (o : BitVec 10) (dev pa pick : Nat) (ro : Bool),
    let n := memSize z
    let va := s.memAddr a z i o
    let x' : Target := .dram dev pa va
    (s.guardHolds g = true → ¬(z = 3 ∧ x = 1) → (s.me.stores.any fun e => e.mark) = false →
      s.aim va n = .ok (.dram dev false ro) → s.l1Bytes va n = none → s.translateAt va dev false .read = .ok pa →
      s.walkMoves dev s.me.space va.toNat = false → allQueued s.me.stores x' n = false →
      let s1 := s.noteWalk dev s.me.space va.toNat
      let p := s1.pick 4096
      exec (.ld g d a z x i o) s
        = .next ((p.2.park s.tf (.load dev pa va none)).later .threadLoadReply (.ctx s.tf p.1)))
    ∧ (∀ (t : CtxRef) (b : Word) (acq : Option Nat) (j : Instr) (f : MemForm), s.ev = .ctx t pick →
      (s.ctx t).mode = .waiting (.load dev pa b acq) → (s.ctx t).cur = some j → memForm j = some f → s.moving dev pa = false →
      s.askedEarlier t = false → passesStore (s.ctx t).stores (.dram dev pa b) (memSize f.z) = false →
      let s1 : State := { s with tf := t }
      let line := s1.dramGet dev (pa / 128 * 128) 128
      let s2 := if t.core.isThread && t.core.dev == some dev then s1.modCore t.core fun c => c.l1Fill (b.toNat / 128) line pick
        else s1
      exec .threadLoadReply s = .next (s2.endLoad f b acq (s1.loadBytes (.dram dev pa b) (memSize f.z))))
    ∧ (∀ (q : List StoreEntry) (k : Nat) (m : List Byte), q = [] → overlay q x' k m = m)
    ∧ (∀ (q : List StoreEntry) (e : StoreEntry) (k : Nat) (b : Byte), e.target = x' → k < e.bytes.length →
      youngest (q ++ [e]) x' k b = (e.bytes[k]?).getD b)

/-- R75, R27, R77, R259, R313: stores enter the context's store queue and the thread goes on; a store to an own-pool word outside
the workspace is not yet performed, one to device memory is queued under its physical address, unless its walk meets a line that
moves: it then waits. ST.REL first waits until the
queue is empty. -/
def Claim.StoresEnterTheQueue : Prop :=
  ∀ (s : State) (g : Guard) (d a w : Reg) (z : BitVec 2) (i : BitVec 1) (o : BitVec 10), s.guardHolds g = true →
    let n := memSize z
    let f : MemForm := ⟨d, a, z, 0, i, o⟩
    let va := s.memAddr a z i o
    let bs := leBytes n (s.reg d).toNat
    (∀ off, s.aim va n = .ok (.pool s.tf.core off) →
        exec (.st g d a z i o) s = .next ((s.endStore f va).pushStore (.pool s.tf.core off) bs))
    ∧ (∀ dev pa ro, s.aim va n = .ok (.dram dev false ro) → s.translateAt va dev false .write = .ok pa →
        s.walkMoves dev s.me.space va.toNat = false → exec (.st g d a z i o) s
          = .next (((s.noteWalk dev s.me.space va.toNat).endStore f va).pushStore (.dram dev pa va) bs))
    ∧ (∀ dev pa, s.aim va n = .ok (.dram dev true false) → s.translateAt va dev true .write = .ok pa →
        s.walkMoves dev s.me.space va.toNat = false → exec (.st g d a z i o) s = .next ((((s.noteWalk dev s.me.space va.toNat).ask dev).park s.tf (.window dev pa va bs)).later
          .windowStoreAck (.ctx s.tf 0)))
    ∧ (∀ dev, s.aim va n = .ok (.dram dev true true) → Traps (.st g d a z i o) s 4 0 va)
    ∧ (∀ dev, s.aim va n = .ok (.dram dev true false) ∨ s.aim va n = .ok (.dram dev false false) →
        s.walkMoves dev s.me.space va.toNat = true → Pauses (.st g d a z i o) s .again)
    ∧ (∀ c, s.aim va n = .error c → Traps (.st g d a z i o) s c 0 va)
    ∧ (∀ off, scopeLegal (s.reg w) = true → s.me.stores = [] → countsUpdates s.tf.core (scopeLevel (s.reg w)) = false →
        s.aim (s.reg a) n = .ok (.pool s.tf.core off) → exec (.stRel g d a z w) s
          = .next ((s.endStore ⟨d, a, z, 0, 0, 0⟩ (s.reg a)).pushStore (.pool s.tf.core off) bs))
    ∧ (scopeLegal (s.reg w) = true → s.me.stores ≠ [] → ∃ upd, Pauses (.stRel g d a z w) s (.drain upd))
    ∧ (∀ x off, x = Target.pool s.tf.core off → off + n ≤ s.me.wp.toNat ∨ s.me.wp.toNat + 160 ≤ off →
        ((s.pushStore x bs).me.stores = s.me.stores
            ++ [{ target := x, bytes := bs, issued := s.wcc, space := s.me.space, after := none, mark := false }])
        ∧ (s.pushStore x bs).pool = s.pool)

/-- R257, R259, R255: a queued store is performed at its target in one piece and leaves the queue; stores of one target are
performed in their order. -/
def Claim.StoresArePerformedInOrder : Prop :=
  ∀ (s : State) (t : CtxRef) (pick : Nat) (e : StoreEntry) (rest : List StoreEntry), s.ev = .ctx t pick →
    (s.ctx t).stores = e :: rest →
    (rest = [] → e.after = none → (∀ d pa va, e.target = .dram d pa va → s.moving d pa = false) →
      exec .storePerformed s = .next ((s.targetSet (some t.core) e.target e.bytes).modCtx t fun c => { c with stores := [] }))
    ∧ (∀ i, i ∈ s.performable (e :: rest) → ∀ j f, j < i → (e :: rest)[j]? = some f →
      ∀ h, (e :: rest)[i]? = some h → s.sameTarget f.target h.target = false)
    ∧ (∀ c off, e.target = .pool c off → s.pool.wf →
      ((s.performAt t 0).pool.getBytes (c.poolBase + off) e.bytes.length = e.bytes)
      ∧ ∀ a, ¬bytesAt (c.poolBase + off) e.bytes.length a → (s.performAt t 0).pool.get a = s.pool.get a)

/-- R75, R77, R255, R257, R259: stores, from the queue to their targets. -/
def Obligations.Stores : Prop := Claim.StoresEnterTheQueue ∧ Claim.StoresArePerformedInOrder

/-- R80, R261, R264, R265: MARK and what waits behind it, FENCE, and the DRAINs, with and without something outstanding. -/
def Obligations.OrderingPoints : Prop :=
  ∀ (s : State) (g : Guard) (a : Reg), s.guardHolds g = true →
    let level := scopeLevel (s.reg a)
    exec (.mark g) s = .next (s.markStores.retire 4)
    ∧ (∀ e ∈ s.markStores.me.stores, e.mark = true)
    ∧ ((s.me.stores.any fun e => e.mark) = true → ∀ (d b : Reg) (z : BitVec 2) (x i y : BitVec 1) (o : BitVec 10) (l : BitVec 3)
      (q : BitVec 2), (¬(z = 3 ∧ x = 1) → Pauses (.ld g d a z x i o) s .again) ∧ Pauses (.join g a) s .again
      ∧ (atomicLegal l q = true → Pauses (.swp g d a b l q y) s .again ∧ Pauses (.faa g d a b l q y) s .again
        ∧ Pauses (.redc g a b l q y) s .again))
    ∧ (scopeLegal (s.reg a) = false → Traps (.fence g a) s 7 0 0)
    ∧ (scopeLegal (s.reg a) = true → level ≤ 1 → exec (.fence g a) s = .next (s.markStores.retire 4))
    ∧ (scopeLegal (s.reg a) = true → 1 < level → s.me.stores = [] → (s.ctx (s.homeOf s.tf)).updates = [] →
      exec (.fence g a) s = .next ((s.l1Clear s.tf.core).retire 4))
    ∧ (scopeLegal (s.reg a) = true → 1 < level → s.me.stores ≠ [] → ∃ upd, Pauses (.fence g a) s (.drain upd))
    ∧ ((s.ctx (s.homeOf s.tf)).deferred = none →
      (s.drained s.tf 0 s.serial = true → Skips (.drainPool g) s 4) ∧ (s.drained s.tf 1 s.serial = true → Skips (.drainCluster g) s 4)
      ∧ (s.drained s.tf 2 s.serial = true → Skips (.drainHbm g) s 4) ∧ (s.drained s.tf 3 s.serial = true → Skips (.drainTier g) s 4))
    ∧ (s.drained s.tf 0 s.serial = false → Waits (.drainPool g) s (.drainMem 0 s.serial))
    ∧ (s.drained s.tf 1 s.serial = false → Waits (.drainCluster g) s (.drainMem 1 s.serial))
    ∧ (s.drained s.tf 2 s.serial = false → Waits (.drainHbm g) s (.drainMem 2 s.serial))
    ∧ (s.drained s.tf 3 s.serial = false → Waits (.drainTier g) s (.drainMem 3 s.serial))
    ∧ (∀ t m b, s.ev = .ctx t 0 → (s.ctx t).mode = .waiting (.drainMem m b) → s.drained t m b = true →
      (s.ctx (({ s with tf := t } : State).homeOf t)).deferred = none →
      exec .drainComplete s = .next (({ s with tf := t } : State).retire 4))

/-- R81, R82, R314: cache maintenance at its issue: from then on it is in progress on the devices whose interleave registers no one
changes; a range in device memory is walked page by page while the context waits; the
privileged forms trap for a user; ranges above 2^36 bytes trap; L1INV empties L1. Of two checks that fail, that of the address comes
first, which is the model's choice (log 80). -/
def Claim.MaintenanceIssues : Prop :=
  ∀ (s : State) (g : Guard) (a b : Reg), s.guardHolds g = true →
    let va := s.reg a
    let n := s.reg b
    let entered (m : Word) : State := s.enterWalks s.tf (s.walkDevs s.tf va.toNat m.toNat)
    let asked (m : Word) : Out := .next (((entered m).park s.tf (.reply va m)).later .maintenanceWalkDone (.ctx s.tf 0))
    let drains (m : Word) : Out := .next ((entered m).pause (.drain false))
    (va.toNat < deviceEnd → s.me.stores = [] →
      exec (.cwb g a) s = asked 1 ∧ exec (.cflush g a) s = asked 1 ∧ (s.me.priv = true → exec (.cinv g a) s = asked 1)
      ∧ (0 < n.toNat ∧ n.toNat ≤ 2 ^ 36 → exec (.cwbr g a b) s = asked n ∧ exec (.cflushr g a b) s = asked n
        ∧ (s.me.priv = true → exec (.cinvr g a b) s = asked n)))
    ∧ (va.toNat < deviceEnd → n = 0 → Skips (.cwbr g a b) s 4 ∧ Skips (.cflushr g a b) s 4
      ∧ (s.me.priv = true → Skips (.cinvr g a b) s 4))
    ∧ (va.toNat < deviceEnd → s.me.stores ≠ [] → exec (.cwb g a) s = drains 1 ∧ exec (.cflush g a) s = drains 1
      ∧ (s.me.priv = true → exec (.cinv g a) s = drains 1))
    ∧ (∀ (t : CtxRef) (ds : List Nat) (d : Nat), d ∈ ds → (s.dev d).change = none → t ∈ ((s.enterWalks t ds).dev d).walks)
    ∧ (∀ (t : CtxRef) (ds : List Nat) (d : Nat), (s.dev d).change ≠ none → ((s.enterWalks t ds).dev d).walks = (s.dev d).walks)
    ∧ (va.toNat < deviceEnd → 2 ^ 36 < n.toNat → Traps (.cwbr g a b) s 11 0 0 ∧ Traps (.cflushr g a b) s 11 0 0
      ∧ (s.me.priv = true → Traps (.cinvr g a b) s 11 0 0))
    ∧ (s.me.priv = false → Traps (.cinv g a) s 8 0 0 ∧ Traps (.cinvr g a b) s 8 0 0)
    ∧ (deviceEnd ≤ va.toNat → Traps (.cwb g a) s 3 0 va ∧ Traps (.cflush g a) s 3 0 va ∧ Traps (.cwbr g a b) s 3 0 va
      ∧ Traps (.cflushr g a b) s 3 0 va)
    ∧ exec (.l1inv g) s = .next ((s.l1Clear s.tf.core).retire 4)
    ∧ ((s.l1Clear s.tf.core).core s.tf.core).l1 = []

/-- R81, R82: each maintenance instruction completes: where no interleave change is in progress, the end of its walk has done its
lines, page by page, and the context goes on; a page that does not translate traps, a line form with ra and a range form with the
page's base as the fault address. -/
def Claim.MaintenanceCompletes : Prop :=
  ∀ (s : State) (g : Guard) (a b : Reg) (i : Instr), s.guardHolds g = true → s.me.cur = some i → s.me.stores = [] →
    (s.reg a).toNat < deviceEnd → (∀ d, (s.dev d).change = none) →
    let va := s.reg a
    let after (n : Word) (u : State) : State := (u.enterWalks s.tf (u.walkDevs s.tf va.toNat n.toNat)).leaveWalks s.tf
    let ends (n : Word) (one : Bool) : Prop :=
      Completes i s .maintenanceWalkDone (.ctx s.tf 0) fun u =>
        match (after n u).maintainPages (maintenanceKind i) va.toNat n.toNat (pagesOf va.toNat n.toNat) with
        | (s1, none) => s1.retire 4
        | (s1, some (c, x, page)) => s1.trap c x (if one then va else toWord page)
    let n := s.reg b
    (i = .cwb g a ∨ i = .cflush g a ∨ (i = .cinv g a ∧ s.me.priv = true) → ends 1 true)
    ∧ (i = .cwbr g a b ∨ i = .cflushr g a b ∨ (i = .cinvr g a b ∧ s.me.priv = true) → 0 < n.toNat → n.toNat ≤ 2 ^ 36 →
      ends n false)

/-- R81, R363: what the walk does to the lines of one page: CWB and CFLUSH leave none of them dirty and memory as it reads; CINV
leaves none dirty, and CINV and CFLUSH take them from the issuing core's L1. -/
def Claim.MaintainedLines : Prop :=
  ∀ (s : State) (kind d pa va n : Nat), 0 < n →
    let t := s.maintainLines kind d pa va n
    (∀ e ∈ t.dirty, ¬(dramAddr d pa / 128 ≤ e.1 ∧ e.1 ≤ (dramAddr d pa + n - 1) / 128))
    ∧ (kind ≠ 1 → t.dram = s.dram)
    ∧ (kind ≠ 0 → ∀ l ∈ (t.core s.tf.core).l1, ¬(va / 128 ≤ l.line ∧ l.line ≤ (va + n - 1) / 128))
    ∧ (kind = 0 → t.cores = s.cores)

/-- R81, R82: cache maintenance, from its issue to its end. -/
def Obligations.CacheMaintenance : Prop := Claim.MaintenanceIssues ∧ Claim.MaintenanceCompletes ∧ Claim.MaintainedLines

/-! ## Atomics and remote updates (R83 to R90) -/

/-- R83: the new value of the word, and what each operation leaves in it. -/
def Claim.AtomicFunctions : Prop :=
  ∀ (old v e : Nat), old < 2 ^ 64 → v < 2 ^ 64 →
    AtomicFn.apply .faa 64 old v e = (old + v) % 2 ^ 64 ∧ AtomicFn.apply .swp 64 old v e = v
    ∧ AtomicFn.apply .and 64 old v e = old &&& v ∧ AtomicFn.apply .or 64 old v e = old ||| v
    ∧ AtomicFn.apply .xor 64 old v e = old ^^^ v
    ∧ AtomicFn.apply .cas 64 old v e = (if old = e then v else old)
    ∧ AtomicFn.apply .minN 64 old v e = min old v ∧ AtomicFn.apply .maxN 64 old v e = max old v
    ∧ signed 64 (AtomicFn.apply .minI 64 old v e) = min (signed 64 old) (signed 64 v)
    ∧ signed 64 (AtomicFn.apply .maxI 64 old v e) = max (signed 64 old) (signed 64 v)

/-- R83, R84, R88: an atomic on a word of its own core's pool, in every order and scope: the word takes the new value, rd the old
one, an acquire empties L1, and the thread goes on; a release first waits until its context has drained; a scope that names a
bad SYS.RECT traps. A network FAA of device memory goes out to the home slice and completes with the reply (R85). -/
def Obligations.AtomicsComplete : Prop :=
  ∀ (s : State) (g : Guard) (d a b : Reg) (l : BitVec 3) (o : BitVec 2) (q z : BitVec 1) (off : Nat), s.guardHolds g = true →
    atomicLegal l o = true → (q = 1 → o = 2) →
    let n := atomicBitsOf z
    let v := (s.reg b).toNat % 2 ^ n
    (s.me.stores.any fun e => e.mark) = false →
    let rect : Prop := o ≠ 0 → l = 2 → rectLegal s.me.rect.toNat = true
    let drained : Prop := 2 ≤ o.toNat → s.me.stores = [] ∧ (s.ctx (s.homeOf s.tf)).updates = []
    let here (f : AtomicFn) (fq : Bool) : Out := atomicHere ⟨f, d, a, b, l.toNat, fq, o.toNat, n⟩ v (.pool s.tf.core off) s
    (s.aim (s.reg a) (n / 8) = .ok (.pool s.tf.core off) → rect → drained →
      exec (.faa g d a b l o z) s = here .faa false ∧ exec (.swp g d a b l o z) s = here .swp false
      ∧ exec (.cas g d a b l q o z) s = here .cas (q == 1) ∧ exec (.atomicAnd g d a b l o z) s = here .and false
      ∧ exec (.atomicOr g d a b l o z) s = here .or false ∧ exec (.atomicXor g d a b l o z) s = here .xor false
      ∧ exec (.atomicMinI g d a b l o z) s = here .minI false ∧ exec (.atomicMaxI g d a b l o z) s = here .maxI false
      ∧ exec (.atomicMinN g d a b l o z) s = here .minN false ∧ exec (.atomicMaxN g d a b l o z) s = here .maxN false
      ∧ exec (.fadda g d a b l o z) s = here .fadda false)
    ∧ (s.aim (s.reg a) 16 = .ok (.pool s.tf.core off) → rect → drained →
      exec (.redc g a b l o z) s = redcHere n l.toNat o.toNat v (.pool s.tf.core off) s)
    ∧ (∀ dev pa, s.aim (s.reg a) (n / 8) = .ok (.dram dev false false) →
      s.translateAt (s.reg a) dev false .write = .ok pa → s.walkMoves dev s.me.space (s.reg a).toNat = false → rect → drained →
      exec (.faa g d a b l o z) s = .next (((s.noteWalk dev s.me.space (s.reg a).toNat).park s.tf
        (.atomic dev pa (s.reg a) (toWord v))).later .atomicReply (.ctx s.tf 0)))
    ∧ (∀ c, s.aim (s.reg a) (n / 8) = .ok (.pool c off) → c ≠ s.tf.core → rect → drained →
      exec (.swp g d a b l o z) s = travel s c s.me.pc (s.reg a) false)
    ∧ (∀ c, s.aim (s.reg a) (n / 8) = .error c → rect → drained → Traps (.swp g d a b l o z) s c 0 (s.reg a)
        ∧ Traps (.faa g d a b l o z) s c 0 (s.reg a))
    ∧ (o ≠ 0 → l = 2 → rectLegal s.me.rect.toNat = false → Traps (.swp g d a b l o z) s 7 0 0)
    ∧ (rect → 2 ≤ o.toNat → s.me.stores ≠ [] → ∃ upd, Pauses (.swp g d a b l o z) s (.drain upd))
    ∧ (∀ (t : CtxRef) (dev pa k : Nat) (va w : Word) (i : Instr) (f : AtomicForm), s.ev = .ctx t k →
      (s.ctx t).mode = .waiting (.atomic dev pa va w) → (s.ctx t).cur = some i → atomicForm i = some f →
      s.askedEarlier t = false → s.waitsForX t (.dram dev pa va) = false →
      exec .atomicReply s = atomicHere f w.toNat (.dram dev pa va) { s with tf := t })

/-- R83, R257: the indivisible effect of an integer atomic other than a failed CAS on an own-pool word outside the workspace,
with no store of its context queued: the word, rd, and nothing else. -/
def Claim.AtomicEffect : Prop :=
  ∀ (s : State) (f : AtomicFn) (d a b : Reg) (off v n : Nat), s.pool.wf → n = 32 ∨ n = 64 → s.me.stores = [] → f ≠ .fadda →
    v < 2 ^ n → s.me.wp.toNat + 160 ≤ off →
    let c := s.tf.core
    let old := s.pool.num (c.poolBase + off) (n / 8)
    let e := (s.reg d).toNat % 2 ^ n
    ∃ t, atomicHere ⟨f, d, a, b, 0, false, 0, n⟩ v (.pool c off) s = .next t
      ∧ t.pool.num (c.poolBase + off) (n / 8) = f.apply n old v e
      ∧ t.reg d = f.old n old
      ∧ Retires s t 4 fun k => s.regBytes d k ∨ bytesAt (c.poolBase + off) (n / 8) k

/-- R83, R257: the operations of atomics and their indivisible effect. -/
def Obligations.AtomicEffects : Prop := Claim.AtomicFunctions ∧ Claim.AtomicEffect

/-- R89, R90, R244, R267, R277, R278, R324, R356: SPAWNU sends its update and goes on, and a thread core of another space refuses
it; the update is applied once where its address lies, after the earlier ones to that core, or the first failure (of the updates
that one loss fails, the earliest issued) is recorded in its issuer's home context; either way it is over. -/
def Obligations.RemoteUpdates : Prop :=
  ∀ (s : State) (g : Guard) (a b : Reg) (k : BitVec 4), s.guardHolds g = true → k.toNat ≤ 6 →
    let va := s.reg a
    let h := s.homeOf s.tf
    let u : RemoteUpdate :=
      { id := s.serial, src := h, core := s.tf.core, kind := k.toNat, va := va, value := s.reg b, space := s.me.space,
        priv := s.me.priv }
    (∀ p, s.aim va (updateAlign k.toNat) = .ok p →
      (match p with
        | .pool c _ => s.spaceRefused s.tf c = false
        | .dram _ remote ro => (remote && ro) = false
        | .tier _ _ _ => True
        | .window _ _ _ | .bad _ => False) →
      exec (.spawnu g a b k) s = .next
        ((((s.number.2.modCtx h fun c => { c with updates := c.updates ++ [va] }).countSent s.me.tjob).sendUpdate u).retire 4))
    ∧ (∀ c, s.aim va (updateAlign k.toNat) = .error c → Traps (.spawnu g a b k) s c 0 va)
    ∧ (∀ c off, s.aim va (updateAlign k.toNat) = .ok (.pool c off) → c.isThread = true →
      (s.core c).space ≠ s.me.space ∨ (s.me.space = 0 ∧ s.inColumn h.core = false) → Traps (.spawnu g a b k) s 20 0 va)
    ∧ (∀ (w : RemoteUpdate), s.ev = .update w → s.updateBehind w = true →
      exec .remoteUpdateApply s = .next (s.dueAt (s.wcc + 1) .remoteUpdateApply (.update w)))
    ∧ (∀ (w : RemoteUpdate) (c : CoreRef) (off : Nat), s.ev = .update w → s.updateSilent w = false →
      s.updateBehind w = false → s.updatePlace w = .pool c off → s.updateSub w (.pool c off) = false →
      (s.core c).normQueue = [] →
      exec .remoteUpdateApply s = .next ((s.applyUpdate w (.pool c off)).endUpdate w none))
    ∧ (∀ (w : RemoteUpdate) (cause : Nat), s.ev = .update w → s.updateSilent w = false → s.updateBehind w = false →
      s.updateWalks w = false → s.updateTarget w = .error cause →
      (∀ t, exec .remoteUpdateApply s = .next t →
        ((s.ctx w.src).deferred = none → (t.ctx w.src).deferred = some (cause, w.va))
        ∧ (∀ x m l, (s.ctx w.src).deferred = some x → (s.ctx w.src).deferredBy = some (m, l) → s.lossOf w = some l →
          (t.ctx w.src).deferred = if w.id < m then some (cause, w.va) else some x)
        ∧ ((s.ctx w.src).deferred ≠ none → s.lossOf w = none → (t.ctx w.src).deferred = (s.ctx w.src).deferred))
      ∧ ∃ t, exec .remoteUpdateApply s = .next t ∧ (t.ctx w.src).updates = (s.ctx w.src).updates.erase w.va)
    ∧ (∀ (w : RemoteUpdate) (c : CoreRef) (off : Nat), s.pool.wf → w.kind = 0 →
      (s.applyUpdate w (.pool c off)).pool.num (c.poolBase + off) 8
        = (s.pool.num (c.poolBase + off) 8 + w.value.toNat) % 2 ^ 64)

/-! ## Migration and messages (R91 to R98, R243 to R246, R276, R357) -/

/-- R91, R92, R243, R244, R356: MIG and HOME where the thread already is take one turn; MIG to a switch bank and HOME of a guest send
the thread off as a caravan, whose own context is left away (at home) or freed (a guest's); a thread core of another space
refuses an arrival, and every thread core one of space 0 from outside the Phoub column. -/
def Obligations.MigrationDeparts : Prop :=
  ∀ (s : State) (g : Guard) (a : Reg), s.guardHolds g = true →
    let va := s.reg a
    let me := s.tf
    (∀ off, s.aim va 1 = .ok (.pool (s.aliasCore me) off) → Skips (.mig g a) s 4)
    ∧ (∀ k inc off mir, s.aim va 1 = .ok (.tier k inc off) → s.tierRoute me k off = .go me.core mir → Skips (.mig g a) s 4)
    ∧ (∀ c off, s.aim va 1 = .ok (.pool c off) → c ≠ me.core → c ≠ s.aliasCore me → c.isThread = true →
        (s.core c).space ≠ s.me.space ∨ (s.me.space = 0 ∧ s.inColumn (s.homeOf me).core = false) → Traps (.mig g a) s 20 0 va)
    ∧ (∀ c, s.aim va 1 = .error c → Traps (.mig g a) s c 0 va)
    ∧ (∀ k b inc off mir, s.aim va 1 = .ok (.tier k inc off) → s.tierRoute me k off = .go (.switch k b) mir →
        me.core ≠ .switch k b → s.mayLeave me (.go (.switch k b) (s.me.pc + 4) va mir) = true →
        exec (.mig g a) s = .next (s.depart me (.switch k b) (s.me.pc + 4) va mir))
    ∧ (∀ dev remote ro pa, s.aim va 1 = .ok (.dram dev remote ro) → s.translateAt va dev remote .read = .ok pa →
        s.walkMoves dev s.me.space va.toNat = false →
        let edge : CoreRef := .edge dev ((s.dev dev).home pa)
        exec (.mig g a) s = if edge = me.core then .next ((s.noteWalk dev s.me.space va.toNat).retire 4)
          else travel (s.noteWalk dev s.me.space va.toNat) edge (s.me.pc + 4) va false)
    ∧ (∀ dest pc mir, s.mayLeave me (.go dest pc va mir) = false →
        ∃ regs u, migrate s dest pc va mir = .next u ∧ u.me = { s.me with mode := .waiting (.depart (.go dest pc va mir)), held := some regs })
    ∧ (∀ dest pc mir, ¬(dest = (s.homeOf me).core ∧ s.me.home ≠ none) →
        ∃ due, (due, Instr.caravanAdmission, Operand.arrive dest (s.caravanOf me dest pc mir .goOn))
            ∈ (s.depart me dest pc va mir).agenda
          ∧ s.wcc + 8 ≤ due ∧ due ≤ s.wcc + transitBound me.core dest + (if mir then 200 else 0)
          ∧ (s.caravanOf me dest pc mir .goOn).lead = s.traveller me pc)
    ∧ (s.me.home = none → Skips (.home g) s 4)
    ∧ (∀ h, s.me.home = some h → s.mayLeave me (.home (s.me.pc + 4) .goOn) = true →
        exec (.home g) s = .next (s.returnHome me (s.me.pc + 4) .goOn))
    ∧ (s.followers me.core me.n = [] → s.me.leader = none → ∀ dest pc mir,
        ((s.me.home = none → (s.depart me dest pc va mir).me.mode = .away
            ∧ (s.depart me dest pc va mir).me.departure = some ⟨s.me.pc, va, s.me.priv⟩)
          ∧ ∀ h, s.me.home = some h → (s.depart me dest pc va mir).me = Ctx.reset))

/-- R92, R243, R266, R284, R287, R300: the admission of a lone thread to a core with an empty inbox and a free context: the lowest
free one becomes its guest context, with the thread's PC, privilege, space and home route, ready; its registers and predicates stand
in the workspace; L1 is empty. Without a free context it waits in the inbox. A caravan that left a pair from a switch lost since
then is not admitted: at the notice the partner admits what it holds; one whose key has been zeroed is lost. -/
def Claim.CaravanAdmission : Prop :=
  ∀ (s : State) (dest : CoreRef) (c : Caravan) (n : Nat) (rest : List Nat), s.ev = .arrive dest c →
    s.strayed c = false → s.redirect dest c = some dest → (s.core dest).inbox = [] → c.followers = [] →
    c.lead.home.core ≠ dest → c.why = .goOn →
    (∀ o, s.orphaned c = some o → exec .caravanAdmission s = .next (if s.originTold c o
      then s.dueAt s.wcc .caravanAdmission (.arrive o.core (s.fromPartner c o))
      else s.dueAt (s.wcc + 1) .caravanAdmission (.arrive dest c)))
    ∧ (s.orphaned c = none → s.discarded dest c = true → exec .caravanAdmission s = .next s)
    ∧ (s.orphaned c = none → s.discarded dest c = false →
    (s.freeCtxs dest = n :: rest → s.pool.wf → c.lead.regs.length = 16 → (s.core dest).powered = true →
      ∃ t, exec .caravanAdmission s = .next t ∧ (t.ctx ⟨dest, n⟩).mode = .ready ∧ (t.ctx ⟨dest, n⟩).pc = c.lead.pc
        ∧ (t.ctx ⟨dest, n⟩).priv = c.lead.priv ∧ (t.ctx ⟨dest, n⟩).space = c.lead.space
        ∧ (t.ctx ⟨dest, n⟩).home = some c.lead.home ∧ (t.ctx ⟨dest, n⟩).guest = true
        ∧ (∀ r, r < 16 → some (t.regOf ⟨dest, n⟩ r) = c.lead.regs[r]?)
        ∧ t.predsOf ⟨dest, n⟩ = c.lead.pred ||| 1 ∧ (t.core dest).l1 = [])
    ∧ (s.freeCtxs dest = [] → exec .caravanAdmission s = .next (s.modCore dest fun v => { v with inbox := [acceptedAt dest c] })))

/-- R93, R94: a thread that returns home writes its registers, predicate word and privilege into its home context and goes on at
its PC, or takes there the trap that it carries, whose frame holds the PC it carries; a lost one resumes at home with
caravan-lost at the PC of its last departure. -/
def Claim.CaravansEndAtHome : Prop :=
  ∀ (s : State) (c : Caravan), s.ev = .caravan c → c.followers = [] → s.orphaned c = none → s.discarded c.lead.home.core c = false →
    let h := c.lead.home
    (s.strayed c = false → (s.ctx h).mode = .away → s.pool.wf → c.lead.regs.length = 16 → c.why = .goOn →
      ∃ t, exec .caravanReturnHome s = .next t ∧ (t.ctx h).mode = .ready ∧ (t.ctx h).pc = c.lead.pc
        ∧ (t.ctx h).priv = c.lead.priv ∧ (t.ctx h).departure = none
        ∧ (∀ r, r < 16 → some (t.regOf h r) = c.lead.regs[r]?) ∧ t.predsOf h = c.lead.pred ||| 1)
    ∧ (∀ i, s.strayed c = false → c.why = .trap i →
      exec .caravanReturnHome s = .next ((s.takeIn h.core c).1.enterTrap ⟨h.core, (s.takeIn h.core c).2⟩ c.lead.pc i))
    ∧ (∀ d, (s.ctx h).mode = .away → (s.ctx h).departure = some d →
      let u := s.modCtx h fun v => { v with pc := d.pc, priv := d.priv, departure := none, leader := none }
      exec .caravanLost s = .next ((u.enterTrap h d.pc ⟨25, 0, d.addr⟩).countRcvd (s.ctx h).tjob))

/-- R92 to R94, R243, R266: how a thread that travels arrives, and how it ends at home. -/
def Obligations.Caravans : Prop := Claim.CaravanAdmission ∧ Claim.CaravansEndAtHome

/-- R95 to R98, R296: SEND and MCAST wait, with the message under way, for the acceptance; BIND binds its class; RECV takes a
pending deposit or waits; destinations that break a field trap as bad-destination. Which MCAST words name no
destination is the model's reading (log 85), and RECV of a class that its context has not bound is its choice (log 86). -/
def Claim.MessagesAreSent : Prop :=
  ∀ (s : State) (g : Guard) (a b d : Reg) (n : BitVec 4) (c : BitVec 3), s.guardHolds g = true → b.toNat + n.toNat ≤ 15 →
    let w := s.reg a
    let dev := s.memDev s.tf
    let sent (m : Message) : Out :=
      .next ((((s.useWay s.tf.core dev (m.dest.dev.getD dev)).number.2.countSent s.me.tjob).park s.tf (.send w s.serial)).later .messageArrival (.message m))
    let next (u : State) : State := u.retire 4
    let v := (s.core s.tf.core).msgClass c.toNat
    (∀ core, destination dev w = some core → s.canReach (core.dev.getD 0) = true → s.me.stores = [] →
      (s.ctx (s.homeOf s.tf)).updates = [] → exec (.send g a b n) s = sent
        { id := s.serial, tjob := s.me.tjob, src := s.tf, space := s.me.space, dest := core, cls := w.toNat % 8
          words := s.messageWords b n, remote := wbits w 48 1 == 1, mcast := false, rest := [], refused := false }
      ∧ Completes (.send g a b n) s .sendReply (.answer s.tf s.serial true) next)
    ∧ (destination dev w = none → Traps (.send g a b n) s 19 0 w)
    ∧ (∀ e remote core rest, multicast dev w = some (e, remote) → snake e (wbits w 0 22) = core :: rest →
      s.canReach e = true → s.me.stores = [] → (s.ctx (s.homeOf s.tf)).updates = [] →
      exec (.mcast g a b n) s = sent
        { id := s.serial, tjob := s.me.tjob, src := s.tf, space := s.me.space, dest := core, cls := wbits w 22 3
          words := s.messageWords b n, remote := remote, mcast := true, rest := rest, refused := false }
      ∧ Completes (.mcast g a b n) s .mcastAck (.answer s.tf s.serial false) next)
    ∧ (multicast dev w = none → Traps (.mcast g a b n) s 19 0 w)
    ∧ (v.pending = true → exec (.recv g c) s = .next (((s.modClass s.tf.core c.toNat fun k => { k with pending := false }).l1Clear
        s.tf.core).retire 4))
    ∧ (v.pending = false → Waits (.recv g c) s (.recv c.toNat))
    ∧ (v.bound = none ∨ (∃ k, v.bound = some (s.tf.n, k)) →
      exec (.bind g d c) s = .next ((s.modClass s.tf.core c.toNat fun k => { k with bound := some (s.tf.n, d.toNat) }).retire 4))
    ∧ (∀ m k, v.bound = some (m, k) → m ≠ s.tf.n → (s.ctx ⟨s.tf.core, m⟩).mode ≠ .free → Traps (.bind g d c) s 18 0 0)

/-- R97, R98, R276: a message that its destination refuses is answered so; one that it takes stands in the class's queue, at
most eight of them; a deposit writes the words into the bound context's registers and sets the flag, or wakes the context in
RECV; acceptance lets the sender go on, refusal traps it as msg-refused. -/
def Claim.MessagesAreDelivered : Prop :=
  ∀ (s : State),
    (∀ m, s.ev = .message m → s.cutOff m = false → s.refuses m = true → exec .messageArrival s = .next (s.answer m true))
    ∧ (∀ m, s.ev = .message m → s.cutOff m = false → s.refuses m = false → ((s.core m.dest).msgClass m.cls).queue.length < 8 →
      exec .messageArrival s = .next ((s.modClass m.dest m.cls fun v => { v with queue := v.queue ++ [m] }).answer m false))
    ∧ (∀ c k n r m rest, s.ev = .msgClass c k → ((s.core c).msgClass k).bound = some (n, r) →
      ((s.core c).msgClass k).queue = m :: rest → ((s.core c).msgClass k).pending = false → (s.ctx ⟨c, n⟩).mode ≠ .away →
      ∃ t, exec .messageDeposit s = .next t ∧ ((t.core c).msgClass k).queue = rest
        ∧ (s.pool.wf → ∀ i, (h : i < m.words.length) → t.regOf ⟨c, n⟩ (r + i) = m.words[i])
        ∧ ((s.ctx ⟨c, n⟩).mode ≠ .waiting (.recv k) → ((t.core c).msgClass k).pending = true)
        ∧ ((s.ctx ⟨c, n⟩).mode = .waiting (.recv k) → (t.ctx ⟨c, n⟩).mode = .ready ∧ ((t.core c).msgClass k).pending = false))
    ∧ (∀ t w n, s.ev = .answer t n true → (s.ctx t).mode = .waiting (.send w n) →
      exec .sendReply s = .next (({ s with tf := t } : State).retire 4) ∧ Traps .mcastAck { s with tf := t } 18 0 w)
    ∧ (∀ t w n, s.ev = .answer t n false → (s.ctx t).mode = .waiting (.send w n) →
      exec .mcastAck s = .next (({ s with tf := t } : State).retire 4) ∧ Traps .sendReply { s with tf := t } 18 0 w)

/-- R95 to R98, R276: messages, from SEND to the deposit. -/
def Obligations.Messages : Prop := Claim.MessagesAreSent ∧ Claim.MessagesAreDelivered

/-! ## Tasks and engines (R99 to R102, R229, R230, R238 to R242, R269) -/

/-- R100, R229, R230, R241, R313: SPAWN checks, counts and pushes, once the line of its descriptor no longer moves; JOIN on a counter
that reads 0 goes on with an acquire, and waits otherwise; TASKEND waits for its decrement and then takes the next task; both go home
first on a guest. -/
def Obligations.TasksSpawnJoinEnd : Prop :=
  ∀ (s : State) (g : Guard) (a : Reg), s.guardHolds g = true →
    let ra := s.reg a
    let drained : Prop := s.me.stores = [] ∧ (s.ctx (s.homeOf s.tf)).updates = []
    let alone : Prop := s.portBusy s.tf.core = false ∧ (∀ k, (s.ctx ⟨s.tf.core, k⟩).asked = none)
      ∧ ∀ e ∈ s.agenda, ∀ v, e.2.2 ≠ .update v
    let still : Prop := s.descMoves s.tf.core s.me.space s.me.priv ra = false
    (s.me.home = none → drained → ¬still → Pauses (.spawn g a) s .again)
    ∧ (s.me.home = none → drained → still → s.spawnCheck ra = .ok (0, none) → s.dequeFull s.tf.core = false →
      s.portBusy s.tf.core = false → exec (.spawn g a) s = .next ((s.pushBottom s.tf.core (dequeEntry ra false) s.me.tjob).retire 4))
    ∧ (∀ w, s.me.home = none → drained → still → s.spawnCheck ra = .ok (w, none) → w ≠ 0 →
      exec (.spawn g a) s = .next (((s.askCounter w).park s.tf (.reply ra w)).later .atomicReply (.ctx s.tf 0)))
    ∧ (∀ w x, s.me.home = none → drained → still → s.spawnCheck ra = .ok (w, none) → w ≠ 0 → s.me.cur = some (.spawn g a) → alone →
      s.dequeFull s.tf.core = false → s.counterHidden s.tf w = false → s.counterTarget s.tf w .write = .ok x →
      Completes (.spawn g a) s .atomicReply (.ctx s.tf 0) fun u =>
        ((u.addCounter s.tf x 1).pushBottom s.tf.core (dequeEntry ra false) s.me.tjob).retire 4)
    ∧ (∀ w core, s.me.home = none → drained → still → s.spawnCheck ra = .ok (w, some core) →
      exec (.spawn g a) s
        = .next (((if w = 0 then s else s.askCounter w).park s.tf (.reply ra w)).later .pinnedEntryAccept (.ctxCore s.tf core)))
    ∧ (∀ c x va, s.me.home = none → drained → still → s.spawnCheck ra = .error (c, x, va) → Traps (.spawn g a) s c x va)
    ∧ (ra.toNat % 64 ≠ 0 → s.spawnCheck ra = .error (2, 0, ra))
    ∧ (∀ s1, (s.me.stores.any fun e => e.mark) = false → s.settleCounter ra = some s1 → s1.counterValue s.tf ra = .ok 0 →
      s1.counterHidden s.tf ra = false → exec (.join g a) s = .next ((s1.l1Clear s.tf.core).retire 4))
    ∧ (∀ v, (s.me.stores.any fun e => e.mark) = false → s.settleCounter ra = some s → s.counterValue s.tf ra = .ok v → v ≠ 0 →
      Waits (.join g a) s (.join ra none))
    ∧ (∀ e, (s.me.stores.any fun e => e.mark) = false → s.settleCounter ra = some s → s.counterValue s.tf ra = .error e →
      Traps (.join g a) s e.1 e.2 ra)
    ∧ (s.me.home = none → drained → s.me.deferred = none → s.me.counter = 0 → s.portBusy s.tf.core = false → exec (.taskend g) s = .next s.nextTask)
    ∧ (∀ x, s.me.home = none → drained → s.me.deferred = none → s.me.counter ≠ 0 →
      s.counterTarget s.tf s.me.counter .write = .ok x →
      exec (.taskend g) s = .next (((s.askCounter s.me.counter).park s.tf (.reply s.me.counter 0)).later .atomicReply (.ctx s.tf 0))
      ∧ (s.me.cur = some (.taskend g) → alone → s.counterHidden s.tf s.me.counter = false →
        Completes (.taskend g) s .atomicReply (.ctx s.tf 0) fun u =>
          ((u.addCounter s.tf x (2 ^ 64 - 1)).modCtx s.tf fun c => { c with counter := 0 }).nextTask))
    ∧ (∀ h, s.me.home = some h → s.mayLeave s.tf (.home s.me.pc .goOn) = true →
      exec (.spawn g a) s = .next (s.returnHome s.tf s.me.pc .goOn)
      ∧ exec (.taskend g) s = .next (s.returnHome s.tf s.me.pc .goOn))
    ∧ (∀ t va m, s.ev = .ctx t 0 → (s.ctx t).mode = .waiting (.join va m) → s.counterValue t va = .ok 0 →
      s.counterHidden t va = false → exec .joinRelease s = .next ((({ s with tf := t } : State).l1Clear t.core).retire 4))
    ∧ (∀ t core w, s.ev = .ctxCore t core → (s.ctx t).mode = .waiting (.reply w 0) → s.askedEarlier t = false →
      s.portBusy core = false → s.dequeFull core = false → exec .pinnedEntryAccept s
        = .next ((({ s with tf := t } : State).pushBottom core (dequeEntry w true) (s.ctx t).tjob).retire 4))

/-- R238, R239, R240, R241, R338: what the deque and the steals do: last in first out at the bottom, the oldest at the top, never a
pinned entry to a thief; a local start and a successful probe of a running job start the task on a context that waits or is free
(which one, and when the waiters halt, is the model's reading, log 31); a probe that finds nothing, or the port busy at its bound
(log 114), fails, and on a job whose deques are empty it halts the waiters. -/
def Claim.DequeAndSteals : Prop :=
  ∀ (s : State) (c v : CoreRef) (e : Word) (j : Option Nat),
    (s.pool.wf → (s.core c).dqLen < 64 → (s.core c).dqTop < 64 →
      ((s.pushBottom c e j).takeBottom c).map (fun x => x.1) = some e
      ∧ ((s.core c).dqLen = 0 → wbits e 0 1 = 0 → ((s.pushBottom c e j).takeTop c).map (fun x => x.1) = some e)
      ∧ ((s.core c).dqLen = 0 → wbits e 0 1 = 1 → (s.pushBottom c e j).takeTop c = none))
    ∧ ((s.core c).dqLen = 0 → s.takeBottom c = none ∧ s.takeTop c = none)
    ∧ (∀ n env w s1, s.ev = .core c → s.localEnv c = some env → s.startContext c = some n →
      (∀ l, (s.core c).lastLocal = some l → l + 16 ≤ s.wcc) → s.portBusy c = false → s.takeBottom c = some (w, s1) →
      let s2 := s1.modCore c fun u => { u with lastLocal := some s.wcc }
      exec .localStart s = .next (s2.beginTask ⟨c, n⟩ env (s.inColumn c) (w >>> 6 <<< 6)))
    ∧ (∀ x, s.ev = .thief c v → (s.core c).steal = some x → x.probing = none →
      let y : StealState := { x with probing := some (s.wcc + probeBound c v), first := some (x.first.getD s.wcc) }
      exec .stealProbe s = .next ((s.modCore c fun k => { k with steal := some y }).within (probeBound c v)
        .stealProbeComplete (.thief c v)))
    ∧ (∀ x k job n (w : Word) (s1 : State), s.ev = .thief c v → (s.core c).steal = some x → x.probing ≠ none → s.stealJob c = some (k, job) →
      job.state = .running → s.inSet k v = true → s.portBusy v = false →
      let s0 := s.endProbe c v true
      let begun := (s1.countSent (some k)).countRcvd (some k)
      let desc := w >>> 6 <<< 6
      s0.stealContext c = some n → s0.takeTop v = some (w, s1) →
      (s.poolOffset v desc = none → exec .stealProbeComplete s = .next (begun.beginTask ⟨c, n⟩ (job.env k) false desc))
      ∧ (s.poolOffset v desc ≠ none → exec .stealProbeComplete s
        = .next (begun.startTask ⟨c, n⟩ (job.env k) false desc (s.descriptor v job.space false desc))))
    ∧ (∀ x k job, s.ev = .thief c v → (s.core c).steal = some x → x.probing ≠ none → s.stealJob c = some (k, job) →
      let s0 := s.endProbe c v (!s.portBusy v)
      s.portBusy v = true ∨ job.state ≠ .running ∨ s.inSet k v = false ∨ s0.takeTop v = none →
      exec .stealProbeComplete s = .next (if job.dqEmpty ∧ job.state = .running then s0.haltWaiters c else s0))
    ∧ (∀ x, (s.core c).steal = some x → ((s.endProbe c v true).core c).steal = some { x with probing := none }
      ∧ (s.endProbe c v true).portBusy v = true)

/-- R100, R111, R71, R313, R356: the start of a task whose descriptor passes its checks: the PC, the counter, w0 to w3, a workspace
of 160 bytes, the job's space, vector and rectangle, the mode; one whose descriptor lies in a line that moves waits for it; one that
fails a check, or cannot be read (log 115), traps as address-fault. Tasks of the Phoub column start in privileged mode, the others
in user mode (log 117). -/
def Claim.TaskStart : Prop :=
  ∀ (s : State) (t : CtxRef) (e : TaskEnv) (priv : Bool) (desc : Word) (ws : List Word), s.pool.wf → ws.length = 8 →
    let w (k : Nat) : Word := (ws[k]?).getD 0
    s.taskPriv t.core = s.inColumn t.core
    ∧ (s.descMoves t.core e.space priv desc = false →
      s.beginTask t e priv desc = s.startTask t e priv desc (s.descriptor t.core e.space priv desc))
    ∧ (s.descMoves t.core e.space priv desc = true → ((s.beginTask t e priv desc).ctx t).mode = .waiting (.start desc))
    ∧ ((w 0).toNat % 4 ≠ 0 ∨ deviceEnd ≤ (w 0).toNat ∨ w 7 ≠ 0 → ∃ u : State,
      s.startTask t e priv desc (some ws) = u.enterTrap t (w 0) ⟨3, 0, desc⟩)
    ∧ (∃ u : State, s.startTask t e priv desc none = u.enterTrap t 0 ⟨3, 0, desc⟩)
    ∧ ((s.core t.core).powered = true → t.n < 16 → (w 0).toNat % 4 = 0 → (w 0).toNat < deviceEnd → w 7 = 0 →
    let u := s.startTask t e priv desc (some ws)
    (u.ctx t).mode = .ready ∧ (u.ctx t).pc = w 0 ∧ (u.ctx t).counter = w 1 ∧ (u.ctx t).priv = priv
    ∧ (u.ctx t).space = e.space ∧ (u.ctx t).tvec = e.tvec ∧ (u.ctx t).rect = e.rect ∧ (u.ctx t).tjob = e.tjob
    ∧ (u.ctx t).wp = BitVec.ofNat 18 (160 * t.n)
    ∧ u.regOf t 0 = w 2 ∧ u.regOf t 1 = w 3 ∧ u.regOf t 2 = w 4 ∧ u.regOf t 3 = w 5
    ∧ (u.core t.core).dqLen = (s.core t.core).dqLen)

/-- R71, R100, R111, R238 to R241: deques, steals and the start of a task. -/
def Obligations.DequesStealsAndStarts : Prop := Claim.DequeAndSteals ∧ Claim.TaskStart

/-- R101, R102, R269: EPUSH enters a command into the engine's FIFO or waits while 16 stand there; EPOP takes the oldest
result, or waits; a command that fails its checks does nothing and pushes an error element; a copy moves its bytes piece by piece
(log 87) and then pushes the tag that NOTIFY asks for; a gather pushes its elements; a collective of one core gives that core its
value. -/
def Obligations.EnginesWork : Prop :=
  ∀ (s : State) (g : Guard) (a d : Reg),
    let c := s.tf.core
    let va := s.reg a
    let pushed (e : CoreEngine) (off : Nat) : Out :=
      let s1 : State := { s with serial := s.serial + 1 }
      let cmd : EngineCommand :=
        { id := s.serial, owner := s.tf.n, space := s.me.space, priv := s.me.priv, tjob := s.me.tjob,
          words := (List.range 8).map fun k => toWord (s.pool.num (c.poolBase + off + 8 * k) 8), left := [], due := [], got := [] }
      .next (((s1.modEngine c e fun v => { v with fifo := v.fifo ++ [cmd] }).later .engineCommandStart (.engine c e)).retire 4)
    let popped (e : CoreEngine) (v : Word) (rest : List Word) : Out :=
      .next (((s.modEngine c e fun k => { k with results := rest }).setReg d v).retire 4)
    (∀ off, s.guardHolds g = true → s.aim va 64 = .ok (.pool c off) → c = s.aliasCore s.tf → s.me.stores = [] →
      (s.ctx (s.homeOf s.tf)).updates = [] →
      ((s.core c).copy.fifo.length < 16 → exec (.epushCopy g a) s = pushed .copy off)
      ∧ ((s.core c).gather.fifo.length < 16 → exec (.epushGather g a) s = pushed .gather off)
      ∧ ((s.core c).coll.fifo.length < 16 → exec (.epushColl g a) s = pushed .coll off)
      ∧ (16 ≤ (s.core c).copy.fifo.length → Pauses (.epushCopy g a) s (.push .copy))
      ∧ (16 ≤ (s.core c).gather.fifo.length → Pauses (.epushGather g a) s (.push .gather))
      ∧ (16 ≤ (s.core c).coll.fifo.length → Pauses (.epushColl g a) s (.push .coll)))
    ∧ (∀ v rest, s.guardHolds g = true →
      ((s.core c).copy.results = v :: rest → exec (.epopCopy g d) s = popped .copy v rest)
      ∧ ((s.core c).gather.results = v :: rest → exec (.epopGather g d) s = popped .gather v rest)
      ∧ ((s.core c).coll.results = v :: rest → exec (.epopColl g d) s = popped .coll v rest))
    ∧ (s.guardHolds g = true → ((s.core c).gather.results = [] → Pauses (.epopGather g d) s (.pop .gather))
      ∧ ((s.core c).copy.results = [] → Pauses (.epopCopy g d) s (.pop .copy))
      ∧ ((s.core c).coll.results = [] → Pauses (.epopColl g d) s (.pop .coll)))
    ∧ (∀ k m rest x, s.ev = .engine k .copy → (s.core k).copy.fifo = m :: rest → s.checkCommand k .copy m = .fails x →
      (s.core k).copy.results.length < 32 → ∃ t, exec .engineCommandStart s = .next t
        ∧ (t.core k).copy.results = (s.core k).copy.results ++ [toWord (0xFFFFFFFF00000000 + x)] ∧ (t.core k).copy.fifo = rest)
    ∧ (∀ k m rest, s.ev = .engine k .copy → (s.core k).copy.fifo = m :: rest → s.checkCommand k .copy m = .good →
      (s.core k).copy.active = [] → ∃ t, exec .engineCommandStart s = .next t ∧ (t.core k).copy.fifo = rest
        ∧ (t.core k).copy.active = [{ m with left := [(0, (m.word 3).toNat)], due := [(0, (m.word 3).toNat)] }])
    ∧ (∀ k id m, s.ev = .command k id → (s.core k).copy.active = [m] → m.id = id →
      (m.due = [] → (s.core k).copy.results.length < 32 → exec .copyCommandComplete s = .next (s.modEngine k .copy fun v =>
        { v with active := v.active.filter fun x => x.id != id,
                 results := v.results ++ if wbits (m.word 0) 0 1 == 1 then [m.word 4] else [] }))
      ∧ (∀ s1, m.due ≠ [] → s.copyStep k m = .ok (some s1) →
        exec .copyCommandComplete s = .next (s1.later .copyCommandComplete (.command k id)))
      ∧ (∀ x, m.due ≠ [] → s.copyStep k m = .error x → (s.core k).copy.results.length < 32 →
        exec .copyCommandComplete s = .next (s.modEngine k .copy fun v =>
          { v with active := v.active.filter fun x => x.id != id, results := v.results ++ [toWord (0xFFFFFFFF00000000 + x)] })))
    ∧ (∀ k m o n s1, s.copyWrite k m o n = .ok (some s1) → ∃ s0,
      s.writeRange k m.space (pagesOf ((m.word 2).toNat + o) n) ((m.word 2).toNat + o) (m.got.getBytes o n) = .ok s0
      ∧ s1 = s0.modCopy k m.id fun a => { a with due := cutRange a.due o n, got := a.got.clear o n })
    ∧ (∀ k m s1, s.copyRead k m = .ok (some s1) → ∃ (o n : Nat) (bs : List Byte) (s0 : State),
      s.readRange k m.space (pagesOf ((m.word 1).toNat + o) n) ((m.word 1).toNat + o) n = .ok bs
      ∧ s1 = s0.modCopy k m.id fun a => { a with left := cutRange a.left o n, got := a.got.setBytes o bs })
    ∧ (∀ k m x off bs, s.ev = .core k → (s.core k).gather.active = [m] → (s.core k).gather.results.length < 32 →
      (s.core k).gather.next + 1 < (m.word 3).toNat → s.poolOffset k (m.word 2) = some off →
      x = m.word 1 + BitVec.ofNat 64 (s.pool.num (k.poolBase + off + 4 * (s.core k).gather.next) 4 * 2 ^ wbits (m.word 0) 0 2) →
      s.rangeMoves k m.space x.toNat (2 ^ wbits (m.word 0) 0 2) .read = false →
      s.readRange k m.space (pagesOf x.toNat (2 ^ wbits (m.word 0) 0 2)) x.toNat (2 ^ wbits (m.word 0) 0 2) = .ok bs →
      ∃ t, exec .gatherElementPush s = .next t
        ∧ (t.core k).gather.results = (s.core k).gather.results ++ [toWord (leNat bs)]
        ∧ (t.core k).gather.next = (s.core k).gather.next + 1)
    ∧ (∀ key k id v, s.ev = .key key → s.colls.get? key = some [(k, id, 0, v)] → (s.core k).coll.results.length < 32 →
      ∃ t, exec .collectiveComplete s = .next t ∧ (t.core k).coll.results = (s.core k).coll.results ++ [v])

/-! ## The switch tier (R105 to R107, R281 to R285) -/

/-- R105, R106, R264, R281 to R285, R288: SALLOC, SFREE and SINFO wait for the switch's reply; the reply writes the pointer and the
reason, frees the allocation whose base the pointer is, or writes a size, health, quota or incarnation. That the reply of an SINFO
comes with the event of SFREE's is the model's choice (log 111). -/
def Claim.TierAllocations : Prop :=
  ∀ (s : State) (g : Guard) (d a b : Reg), s.Enabled g → d ≠ b →
    let p := s.pick (2 ^ 32)
    let asked : Out := .next ((p.2.park s.tf (.reply (s.reg a) 0)).later .sallocReply (.ctx s.tf p.1))
    let k := (s.reg a).toNat
    exec (.salloc g d a b) s = asked ∧ exec (.sallocMir g d a b) s = asked
    ∧ (s.me.cur = some (.salloc g d a b) → Completes (.salloc g d a b) s .sallocReply (.ctx s.tf p.1) fun u =>
        let r := u.allocate (u.homeDev s.tf) u.me.space false k p.1
        ((r.1.setReg d r.2.1).setReg b (toWord r.2.2)).retire 4)
    ∧ (s.me.cur = some (.sallocMir g d a b) → Completes (.sallocMir g d a b) s .sallocReply (.ctx s.tf p.1) fun u =>
        let r := u.allocate (u.homeDev s.tf) u.me.space true k p.1
        ((r.1.setReg d r.2.1).setReg b (toWord r.2.2)).retire 4)
    ∧ (s.me.cur = some (.sfree g a) → (∃ s1, s.free s.tf (s.reg a) = .ok s1) →
        Completes (.sfree g a) s .sfreeReply (.ctx s.tf 0) fun u =>
          match u.free s.tf (s.reg a) with
          | .ok s1 => s1.retire 4
          | .error _ => u)
    ∧ exec (.sfree g a) s = .next ((s.park s.tf (.reply (s.reg a) 0)).later .sfreeReply (.ctx s.tf 0))
    ∧ (∀ t n pick mir, s.ev = .ctx t pick → (s.ctx t).mode = .waiting (.reply n 0) →
      (s.ctx t).cur = some (if mir then .sallocMir g d a b else .salloc g d a b) →
      let u : State := { s with tf := t }
      let r := u.allocate (u.homeDev t) u.me.space mir n.toNat pick
      exec .sallocReply s = .next (((r.1.setReg d r.2.1).setReg b (toWord r.2.2)).retire 4))
    ∧ (∀ t va s1, s.ev = .ctx t 0 → (s.ctx t).mode = .waiting (.reply va 0) → (s.ctx t).cur = some (.sfree g a) →
      ({ s with tf := t } : State).free t va = .ok s1 → exec .sfreeReply s = .next (s1.retire 4))
    ∧ (∀ t va c, s.ev = .ctx t 0 → (s.ctx t).mode = .waiting (.reply va 0) → (s.ctx t).cur = some (.sfree g a) →
      ({ s with tf := t } : State).free t va = .error c → Traps .sfreeReply { s with tf := t } c 0 va)
    ∧ (let replies (i : Instr) (v : State → Nat) : Prop := s.me.cur = some i →
        Completes i s .sfreeReply (.ctx s.tf 0) fun u => (u.setReg d (toWord (v u))).retire 4
      replies (.sinfoSize g d a) (fun u => u.tierSize s.tf (s.reg a))
      ∧ (k ≤ 23 → replies (.sinfoHealth g d a) (fun u => u.tierHealth (u.homeDev s.tf) k)
        ∧ replies (.sinfoQuota g d a) (fun u => u.quotaLeft k u.me.space) ∧ replies (.sinfoInc g d a) (fun u => (u.switch k).inc)))
    ∧ (23 < k → Traps (.sinfoQuota g d a) s 11 0 0 ∧ Traps (.sinfoInc g d a) s 11 0 0 ∧ Traps (.sinfoHealth g d a) s 11 0 0)

/-- R105, R106, R282, R285, R286, R288: what SINFO's values are: the size of a live allocation of the pointer's incarnation that holds
the pointer, 0 where none does; the health of a switch: bit 0 says that it is up for the reading device, bit 1 that its pair is
complete, the rest its incarnation; the quota left is what the space's live allocations leave of it. -/
def Claim.TierInformation : Prop :=
  ∀ (s : State) (t : CtxRef) (va : Word) (d k : Nat) (space : BitVec 16),
    let v := s.tierHealth d k
    let partner := if k % 2 = 0 then k + 1 else k - 1
    let up (j : Nat) : Prop := (s.switch j).up = true ∧ s.noticed d j = false
    (∀ j inc off, s.classify t va = .tier j inc off →
      (∀ a ∈ s.allocs, s.allocLive a = true → a.covers j off = true → a.inc = inc →
        ∃ b ∈ s.allocs, s.allocLive b = true ∧ b.covers j off = true ∧ b.inc = inc ∧ s.tierSize t va = b.size)
      ∧ ((∀ a ∈ s.allocs, s.allocLive a = true → a.covers j off = true → a.inc ≠ inc) → s.tierSize t va = 0))
    ∧ ((∀ j inc off, s.classify t va ≠ .tier j inc off) → s.tierSize t va = 0)
    ∧ v / 4 = (s.switch k).inc ∧ (v % 2 = 1 ↔ up k)
    ∧ (v / 2 % 2 = 1 ↔ up partner ∧ (s.switch k).filling = false ∧ (s.switch partner).filling = false)
    ∧ s.quotaLeft k space = ((s.switch k).quota.get? space.toNat).getD 0
      - ((s.allocs.filter fun a => s.allocLive a && decide (a.space = space)
          && (a.switch == k || (a.mir && a.switch + 1 == k))).map fun a => a.size / 2 ^ 21).sum

/-- R73, R281, R282, R283, R105: an allocation that succeeds has reason 0 and a pointer to its switch, incarnation and offset; it is
aligned to granules, lies on switches that the device reaches, for a mirrored one on both members of a pair, where no live allocation
lay on any of them, and is charged to quotas that held it; 0 bytes and more than 2^36 give reason 3; without a switch that serves the
reason is 4, without quota 1, without room 2. -/
def Claim.AllocationsDoNotOverlap : Prop :=
  ∀ (s s1 : State) (d n pick : Nat) (space : BitVec 16) (mir : Bool) (p : Word) (r : Nat),
    s.allocate d space mir n pick = (s1, p, r) →
    let needed := (n + 2 ^ 21 - 1) / 2 ^ 21
    let members (k : Nat) : List Nat := if mir then [k, k + 1] else [k]
    let paid (k : Nat) : Prop := ∀ m ∈ members k, needed ≤ s.quotaLeft m space
    (n = 0 ∨ 2 ^ 36 < n → r = 3)
    ∧ (0 < n → n ≤ 2 ^ 36 → (r = 4 ↔ s.eligible d mir = []) ∧ (r = 1 ↔ s.eligible d mir ≠ [] ∧ ∀ k ∈ s.eligible d mir, ¬paid k) ∧ r ≠ 3
      ∧ (r = 2 → (∀ a ∈ s.allocs, (a.off + a.size) % 2 ^ 21 = 0) → ∀ k ∈ s.eligible d mir, paid k →
        ∀ off, ¬∀ m ∈ members k, s.tierFree m off (needed * 2 ^ 21) = true))
    ∧ (r ≠ 0 → s1 = s ∧ p = 0)
    ∧ (r = 0 → ∃ a : Alloc, s1 = { s with allocs := a :: s.allocs } ∧ p = tierPointer a.switch a.inc a.off
      ∧ (a.inc < 64 → p.toNat = 0xE0 * 2 ^ 48 + a.switch * 2 ^ 47 + a.inc * 2 ^ 41 + a.off)
      ∧ a.space = space ∧ a.mir = mir ∧ a.freed = false ∧ a.switch ≤ 23 ∧ (mir = true → a.switch % 2 = 0)
      ∧ a.inc = (if mir then s.pairInc (a.switch / 2) else (s.switch a.switch).inc)
      ∧ a.size = needed * 2 ^ 21 ∧ a.off % 2 ^ 21 = 0 ∧ a.off + a.size ≤ 2 ^ 38
      ∧ ∀ m ∈ members a.switch, s.reachable d m = true ∧ needed ≤ s.quotaLeft m space
        ∧ ∀ b ∈ s.allocs, s.allocLive b = true → b.switch = m ∨ (b.mir = true ∧ b.switch + 1 = m) →
          b.off + b.size ≤ a.off ∨ a.off + a.size ≤ b.off)

/-- R105, R106, R264, R281 to R286, R288: allocations of the tier. -/
def Obligations.TierAllocation : Prop := Claim.TierAllocations ∧ Claim.TierInformation ∧ Claim.AllocationsDoNotOverlap

/-- R107, R272: DOTM on an edge core, as MARK first, checks its command and waits; its rows are then read in order, each by
at least one word at a time, and each result goes into the pool as its row has been read; the last writes rd := n, or the first row
that fails traps. An unassigned address, of ra or of a pool offset of the command, is an address-fault (R8, R9); the cause for a
stride or row count out of range is the model's choice (log 24). A row whose walk meets a line that moves waits (R313). -/
def Obligations.DotmCompletes : Prop :=
  ∀ (s : State) (g : Guard) (d a : Reg) (ty : BitVec 2) (dev e : Nat), s.tf.core = .edge dev e → ty ≠ 3 →
    s.guardHolds g = true →
    let va := s.reg a
    let f := dotmFormat ty
    let len := 128 * f.2
    (∀ off, dotmOffset va = some off → off % 8 = 0 → s.me.stores = [] →
      let ws := s.dotmWords s.tf.core off
      let m := dotmCommand ws
      (m.row.toNat < deviceEnd → m.stride % 128 = 0 → 1 ≤ m.n → m.n ≤ 65536 → m.vec + len ≤ 2 ^ 18 → m.res + 4 * m.n ≤ 2 ^ 18 →
        ∃ u, exec (.dotm g d a ty) s = .next u ∧ u.me.mode = .waiting (.rows ws 0 [])
          ∧ u = (s.markStores.park s.tf (.rows ws 0 [])).later .dotmComplete (.ctx s.tf 0)
          ∧ (m.n = 1 → s.me.cur = some (.dotm g d a ty) →
            let v : State := { u with ev := .ctx s.tf 0 }
            let r := v.readRow dev m.row.toNat len []
            ((rowParts m.row.toNat len).any fun a => v.walkMoves dev v.me.space a) = false →
            v.rowCause dev e m.row.toNat len = none → r.1.length = len →
            exec .dotmComplete v = .next ((({ r.2 with
              pool := r.2.pool.setNum (s.tf.core.poolBase + m.res) 4 (r.2.rowResult s.tf.core m f.1 f.2 r.1) } : State).setReg d
                1).retire 4)))
      ∧ (deviceEnd ≤ m.row.toNat → exec (.dotm g d a ty) s = .next (s.markStores.trap 3 0 m.row))
      ∧ (m.row.toNat < deviceEnd → m.stride % 128 ≠ 0 ∨ m.n = 0 ∨ 65536 < m.n →
        exec (.dotm g d a ty) s = .next (s.markStores.trap 11 0 0))
      ∧ (m.row.toNat < deviceEnd → m.stride % 128 = 0 → 1 ≤ m.n → m.n ≤ 65536 → 2 ^ 18 < m.vec + len ∨ 2 ^ 18 < m.res + 4 * m.n →
        exec (.dotm g d a ty) s = .next (s.markStores.trap 3 0 va)))
    ∧ (∀ off, dotmOffset va = some off → off % 8 = 0 → s.me.stores ≠ [] →
      exec (.dotm g d a ty) s = .next (s.markStores.pause (.drain false)))
    ∧ (∀ off, dotmOffset va = some off → off % 8 ≠ 0 → Traps (.dotm g d a ty) s 2 0 va)
    ∧ (dotmOffset va = none → Traps (.dotm g d a ty) s 3 0 va)
    ∧ (2 ^ 56 ≤ va.toNat → dotmOffset va = none)
    ∧ (∀ t ws i got, s.ev = .ctx t 0 → t.core = .edge dev e → (s.ctx t).mode = .waiting (.rows ws i got) →
      (s.ctx t).cur = some (.dotm g d a ty) →
      let u : State := { s with tf := t }
      let m := dotmCommand ws
      let row := m.row + BitVec.ofNat 64 (i * m.stride)
      let r := u.readRow dev row.toNat len got
      let w : State := { r.2 with pool := r.2.pool.setNum (t.core.poolBase + m.res + 4 * i) 4 (r.2.rowResult t.core m f.1 f.2 r.1) }
      let waits := (rowParts row.toNat len).any fun a => u.walkMoves dev u.me.space a
      (waits = true → exec .dotmComplete s = .next (u.dueAt (s.wcc + 1) .dotmComplete (.ctx t 0)))
      ∧ (waits = false → (∀ c, u.rowCause dev e row.toNat len = some c → got = [] ∨ c ≠ 29 → exec .dotmComplete s = .next (u.trap c 0 row))
      ∧ (u.rowCause dev e row.toNat len = none → r.1.length < len → exec .dotmComplete s
          = .next ((r.2.modCtx t fun c => { c with mode := .waiting (.rows ws i r.1) }).dueAt (r.2.wcc + f.2) .dotmComplete (.ctx t 0)))
      ∧ (u.rowCause dev e row.toNat len = none → len ≤ r.1.length → i + 1 < m.n → exec .dotmComplete s
          = .next ((w.modCtx t fun c => { c with mode := .waiting (.rows ws (i + 1) []) }).dueAt (w.wcc + f.2) .dotmComplete (.ctx t 0)))
      ∧ (u.rowCause dev e row.toNat len = none → len ≤ r.1.length → m.n ≤ i + 1 →
          exec .dotmComplete s = .next ((w.setReg d (toWord m.n)).retire 4)))
      ∧ (got.length < len → (∀ n, n ≤ len - got.length → (u.virtGet dev u.me.space 3 (row.toNat + got.length) n).isSome) →
          got.length < r.1.length ∧ r.1.length ≤ len
          ∧ ((row.toNat + len + 7) / 8 - (row.toNat + got.length) / 8 = 1 → r.1.length = len)))

/-! ## Traps and system instructions (R37, R108 to R111, R307 to R328, R196) -/

/-- R37, R108, R327, R328: taking a trap at home: the frame receives the PC, the cause word and the address, the thread becomes
privileged at SYS.TVEC and forfeits two turns, and no other pool byte changes; when the fetch at SYS.TVEC fails, the context halts
without a second frame. A guest's trap goes home with it. -/
def Claim.TrapEntry : Prop :=
  ∀ (s : State) (cause detail : Nat) (addr : Word), s.pool.wf →
    let t := s.trap cause detail addr
    let w := s.workspace s.tf
    let word (u : State) (k : Nat) : Word := toWord (u.pool.num (w + k) 8)
    let entered (c : Ctx) : Ctx :=
      { c with priv := true, pc := c.tvec, cur := none, phase := 0, held := none, asked := none, last := some (s.wcc + 8),
               suspended := false }
    let framed := (s.writeFrame s.tf s.me.pc (causeWord s.me.priv cause detail) addr).modCtx s.tf entered
    (s.me.home = none →
      (∀ bs, framed.fetchBytes s.tf s.me.tvec.toNat 4 = .ok bs →
        word t 136 = s.me.pc
        ∧ word t 144 = BitVec.ofNat 64 ((if s.me.priv then 2 ^ 63 else 0) + cause % 2 ^ 16 * 2 ^ 16 + detail % 2 ^ 16)
        ∧ word t 152 = addr
        ∧ t.me = { entered s.me with mode := .waiting (.until (s.wcc + 8) false) }
        ∧ Frame s t (bytesAt (w + 136) 24))
      ∧ (∀ c, framed.fetchBytes s.tf s.me.tvec.toNat 4 = .error c → t = framed.doubleFault s.tf ∧ t.me = Ctx.reset))
    ∧ (∀ h, s.me.home = some h → s.mayLeave s.tf (.home s.me.pc (.trap ⟨cause, detail, addr⟩)) = true → t = s.returnHome s.tf s.me.pc (.trap ⟨cause, detail, addr⟩))

/-- R109, R327: ERET restores the PC and the privilege bit from the frame; BKPT and TRAP n trap, TRAP with the next word's
address; the privileged instructions trap for a user. -/
def Claim.TrapInstructions : Prop :=
  ∀ (s : State) (g : Guard) (a b : Reg) (n : BitVec 8), s.guardHolds g = true →
    let w := s.workspace s.tf
    let pc := toWord (s.pool.num (w + 136) 8)
    let cause := toWord (s.pool.num (w + 144) 8)
    (s.me.priv = true → s.me.home = none → ∃ t, JumpsTo (.eret g) s t pc 1 noBytes ∧ t.me.priv = cause.getLsbD 63)
    ∧ (s.me.priv = true → s.me.home ≠ none → s.mayLeave s.tf (.home s.me.pc .goOn) = true →
        exec (.eret g) s = .next (s.returnHome s.tf s.me.pc .goOn))
    ∧ (s.me.priv = false → Traps (.eret g) s 8 0 0 ∧ Traps (.xinv g a b) s 8 0 0 ∧ Traps (.snap g) s 8 0 0)
    ∧ exec (.bkpt g) s = .next (s.trapAt s.me.pc ⟨9, 0, 0⟩)
    ∧ exec (.trap g n) s = .next (s.trapAt (s.me.pc + 4) ⟨10, n.toNat, 0⟩)
    ∧ (s.me.priv = true → exec (.snap g) s
        = .next ((s.retire 4).dueAt (s.wcc + 64) .snapshotCapture (.devNum (s.memDev s.tf) (s.wcc + 64))))
    ∧ (s.me.priv = true → wbits (s.reg a) 18 46 = 0 → wbits (s.reg a) 16 2 ≠ 3 → s.me.stores = [] →
        (s.ctx (s.homeOf s.tf)).updates = [] → exec (.xinv g a b) s
          = .next (((s.l1Clear s.tf.core).park s.tf (.reply (s.reg a) (s.reg b))).later .xinvComplete (.ctx s.tf 0))
        ∧ (s.me.cur = some (.xinv g a b) →
          (∀ t : CtxRef, t.code ≠ s.tf.code → s.xinvWaits (s.memDev s.tf) (s.reg a) (s.reg b) t = false) →
          Completes (.xinv g a b) s .xinvComplete (.ctx s.tf 0) fun u =>
            (u.modDev (s.memDev s.tf) fun v =>
              { v with tlb := v.tlb.filter fun e => !xinvNames (s.reg a) (s.reg b) e.space e.base e.size }).retire 4))
    ∧ (s.me.priv = true → wbits (s.reg a) 18 46 ≠ 0 → Traps (.xinv g a b) s 7 0 0)

/-- R37, R108, R109, R327, R328: the trap entry, the instructions that trap, and returns. -/
def Obligations.TrapsAndReturns : Prop := Claim.TrapEntry ∧ Claim.TrapInstructions

/-- R21, R110, R111: SYSR reads every register of Table 3 of R21; a number that names none is illegal. -/
def Claim.SystemRegisterReads : Prop :=
  ∀ (s : State) (g : Guard) (d : Reg) (r : BitVec 10), s.Enabled g →
    let c := s.core s.tf.core
    let dev := s.dev (s.memDev s.tf)
    let reads (n : Nat) (v : Word) : Prop := r.toNat = n → WritesReg (.sysr g d r) s 4 d v
    reads 0 (s.me.wp.zeroExtend 64) ∧ reads 1 s.me.tvec
    ∧ reads 2 (BitVec.ofNat 64 ((if s.me.priv then 2 ^ 63 else 0) + (if s.me.guest then 2 ^ 4 else 0) + s.tf.n))
    ∧ reads 3 s.tf.core.sysCore ∧ reads 4 (s.me.space.zeroExtend 64) ∧ reads 5 (s.me.rect.zeroExtend 64)
    ∧ reads 8 (BitVec.ofNat 64 (c.bndW.toNat * 512)) ∧ reads 9 (BitVec.ofNat 64 (c.bndS.toNat * 512))
    ∧ reads 10 (BitVec.ofNat 64 (c.bndL.toNat * 512))
    ∧ reads 0x10 c.win0 ∧ reads 0x11 c.win1 ∧ reads 0x12 c.win2 ∧ reads 0x13 c.win3
    ∧ (∀ i, i ≤ 6 → reads (0x20 + i) (dev.mask i)) ∧ reads 0x30 dev.slotmap
    ∧ (∀ k, k < 16 → reads (0x40 + 2 * k) (dev.domBase k) ∧ reads (0x41 + 2 * k) (dev.domLimit k))
    ∧ ((6 ≤ r.toNat ∧ r.toNat ≤ 7) ∨ (11 ≤ r.toNat ∧ r.toNat ≤ 15) ∨ (0x14 ≤ r.toNat ∧ r.toNat ≤ 0x1F)
        ∨ (0x27 ≤ r.toNat ∧ r.toNat ≤ 0x2F) ∨ (0x31 ≤ r.toNat ∧ r.toNat ≤ 0x3F) ∨ 0x60 ≤ r.toNat →
      Traps (.sysr g d r) s 1 0 0)

/-- R110, R111, R323: SYSW of the context's and the core's registers: the values they take, the limits, and the privilege that
all but SYS.RECT ask for. -/
def Claim.SystemRegisterWrites : Prop :=
  ∀ (s : State) (g : Guard) (a : Reg) (k : BitVec 2), s.guardHolds g = true →
    let v := s.reg a
    let c := s.core s.tf.core
    let n := v.toNat / 512 % 1024
    let bound (b : Core) : Out :=
      .next (State.retire { (s.setCore s.tf.core { b with l1 := [] }) with
        pool := s.pool.clear (s.tf.core.poolBase + b.bndL.toNat * 512) (2 ^ 18 - b.bndL.toNat * 512) } 4)
    exec (.sysw g a 5) s = .next ((s.modCtx s.tf fun x => { x with rect := v.truncate 22 }).retire 4)
    ∧ (s.me.priv = true →
      (v.toNat % 2 ^ 56 / 4 * 4 < deviceEnd →
        exec (.sysw g a 1) s = .next ((s.modCtx s.tf fun x => { x with tvec := BitVec.ofNat 64 (v.toNat % 2 ^ 56 / 4 * 4) }).retire 4))
      ∧ (v.toNat % 2 ^ 18 % 8 = 0 → v.toNat % 2 ^ 18 + 160 ≤ c.bndW.toNat * 512 →
        exec (.syswWp g a) s = .next (((s.flushPool s.tf).modCtx s.tf fun x => { x with wp := v.truncate 18 }).retire 4))
      ∧ (v.toNat % 8 ≠ 0 → Traps (.syswWp g a) s 11 0 0)
      ∧ exec (.syswSpace g a) s = .next (((s.modCtx s.tf fun x => { x with space := v.truncate 16 }).l1Clear s.tf.core).retire 4)
      ∧ (s.boundsOk s.tf.core n c.bndS.toNat c.bndL.toNat = true →
        exec (.syswBndW g a) s = bound { c with bndW := BitVec.ofNat 10 n })
      ∧ (s.boundsOk s.tf.core c.bndW.toNat n c.bndL.toNat = true →
        exec (.syswBndS g a) s = bound { c with bndS := BitVec.ofNat 10 n })
      ∧ (s.boundsOk s.tf.core c.bndW.toNat c.bndS.toNat n = true →
        exec (.syswBndL g a) s = bound { c with bndL := BitVec.ofNat 10 n })
      ∧ (s.boundsOk s.tf.core n c.bndS.toNat c.bndL.toNat = false → Traps (.syswBndW g a) s 11 0 0)
      ∧ (windowBad (s.memDev s.tf) v = false →
        exec (.syswWin g a k) s = .next ((s.modCore s.tf.core fun x => x.setWin k.toNat (v >>> 24 <<< 24)).retire 4))
      ∧ (windowBad (s.memDev s.tf) v = true → Traps (.syswWin g a k) s 11 0 0))
    ∧ (s.me.priv = false → Traps (.sysw g a 1) s 8 0 0 ∧ Traps (.syswWp g a) s 8 0 0 ∧ Traps (.syswSpace g a) s 8 0 0
      ∧ Traps (.syswBndW g a) s 8 0 0 ∧ Traps (.syswBndS g a) s 8 0 0 ∧ Traps (.syswBndL g a) s 8 0 0
      ∧ Traps (.syswWin g a k) s 8 0 0)

/-- R21, R110, R111, R323: SYSR, and SYSW of the registers of the context and the core. -/
def Obligations.SystemRegisters : Prop := Claim.SystemRegisterReads ∧ Claim.SystemRegisterWrites

/-- R307 to R313: SYSW of an interleave register: the context's queue drains, and the context waits while the change goes through
its two phases; where no walk and no held request stands in its way, the new contents stand after the adoption and the context goes
on. That a change of another context is waited for is the model's choice (log 40). -/
def Claim.InterleaveChanges : Prop :=
  ∀ (s : State) (g : Guard) (a : Reg) (h : BitVec 3) (k : BitVec 4), s.guardHolds g = true → s.me.priv = true →
    let v := s.reg a
    let d := s.memDev s.tf
    let change (r : Nat) (x : Word) : Change := { issuer := s.tf, reg := r, value := x, pending := false, p := 0 }
    let asked (r : Nat) (x : Word) : Out :=
      .next (((s.modDev d fun u => { u with change := some (change r x) }).park s.tf (.reply (toWord r) x)).within 200
        .interleavePending (.dev d))
    let adopts (i : Instr) (r : Nat) (x : Word) (holds : Device → Prop) : Prop :=
      s.me.stores = [] → (s.dev d).change = none →
        exec i s = asked r x
        ∧ ((s.dev d).walks = [] → (s.dev d).moved = [] → ∃ u w t, exec i s = .next u
          ∧ exec .interleavePending { u with ev := .dev d } = .next w ∧ exec .interleaveAdopt { w with ev := .dev d } = .next t
          ∧ holds (t.dev d) ∧ (t.dev d).change = none ∧ t.me.mode = .ready ∧ t.me.pc = s.me.pc + 4)
    let waits (i : Instr) (r : Nat) (x : Word) : Prop :=
      (s.me.stores ≠ [] → (s.dev d).change = none →
        exec i s = .next ((s.modDev d fun u => { u with change := some (change r x) }).pause (.drain false)))
      ∧ (∀ c, (s.dev d).change = some c → c.issuer ≠ s.tf → Pauses i s .again)
    let fits : Prop := wbits v 49 7 % 2 ^ wbits v 56 3 = 0
    adopts (.syswHmask g a h) (0x20 + h.toNat) (v &&& 0x7FFFFFFF80) (fun x => x.mask h.toNat = v &&& 0x7FFFFFFF80)
    ∧ adopts (.syswDomtabL g a k) (0x41 + 2 * k.toNat) (v &&& 0x7FFFE00000) (fun x => x.domLimit k.toNat = v &&& 0x7FFFE00000)
    ∧ (fits → adopts (.syswDomtabB g a k) (0x40 + 2 * k.toNat) (v &&& 0x87FE007FFFE00000)
        (fun x => x.domBase k.toNat = v &&& 0x87FE007FFFE00000))
    ∧ waits (.syswHmask g a h) (0x20 + h.toNat) (v &&& 0x7FFFFFFF80)
    ∧ waits (.syswDomtabL g a k) (0x41 + 2 * k.toNat) (v &&& 0x7FFFE00000)
    ∧ (fits → waits (.syswDomtabB g a k) (0x40 + 2 * k.toNat) (v &&& 0x87FE007FFFE00000))
    ∧ (¬fits → Traps (.syswDomtabB g a k) s 11 0 0)
    ∧ (∀ e c, s.ev = .dev e → (s.dev e).change = some c → c.pending = false → (s.dev e).walks = [] →
      ∃ t, exec .interleavePending s = .next t ∧ (t.dev e).change = some { c with pending := true, p := s.wcc })
    ∧ (∀ e, s.ev = .dev e → (s.dev e).change ≠ none → (s.dev e).walks ≠ [] →
      exec .interleavePending s = .next (s.dueAt (s.wcc + 1) .interleavePending (.dev e)))
    ∧ (∀ e c, s.ev = .dev e → (s.dev e).change = some c → c.pending = true →
      ∃ t, exec .interleaveAdopt s = .next t ∧ (t.dev e).change = none ∧ (t.dev e).moved = []
        ∧ ∀ u ∈ (s.dev e).moved, ∃ due, (due, Instr.movedReplay, Operand.ctx u 0) ∈ t.agenda)
    ∧ (∀ t, s.ev = .ctx t 0 → (s.ctx t).stores = [] → (s.ctx t).mode = .ready → exec .movedReplay s = .next s)

/-- R110, R195, R196: SYSW SYS.SLOTMAP waits until the value stands, at a turn of the wheels; a value that lowers a share waits
while a job runs that was accepted with a smaller L_A; a share outside 4 to 14 traps as range-limit. A write that finds another one
pending waits for it, which is the model's choice (log 40). -/
def Claim.SlotmapChanges : Prop :=
  ∀ (s : State) (g : Guard) (a : Reg), s.guardHolds g = true →
    let d := s.memDev s.tf
    let w := toWord ((s.reg a).toNat % 2 ^ 32)
    let fits : Prop := ∀ i, i < 8 → 4 ≤ share w i ∧ share w i ≤ 14
    let lowers := (List.range 8).any fun i => decide (share w i < share (s.dev d).slotmap i)
    let c : Change := { issuer := s.tf, reg := 0x30, value := w, pending := lowers, p := 0 }
    let turn := (s.wcc / 64 + 1) * 64
    let u := ((s.modDev d fun x => { x with slotWait := some c }).park s.tf (.reply 0x30 w)).dueAt turn .slotmapTakeEffect (.dev d)
    (s.me.priv = true → fits → (s.dev d).slotWait = none → exec (.syswSlotmap g a) s = .next u
      ∧ ((∀ e ∈ s.jobs, e.2.part.dev = d → e.2.state = .running → (latencies (leastShare w)).1 ≤ e.2.latA) →
        ∃ t, exec .slotmapTakeEffect { u with ev := .dev d, wcc := turn } = .next t
          ∧ (t.dev d).slotmap = w ∧ (t.dev d).slotWait = none ∧ t.me.mode = .ready ∧ t.me.pc = s.me.pc + 4))
    ∧ (s.me.priv = true → fits → (s.dev d).slotWait ≠ none → Pauses (.syswSlotmap g a) s .again)
    ∧ (s.me.priv = true → ¬fits → Traps (.syswSlotmap g a) s 11 0 0)
    ∧ (s.me.priv = false → Traps (.syswSlotmap g a) s 8 0 0)
    ∧ (∀ e x, s.ev = .dev e → (s.dev e).slotWait = some x → x.pending = false → s.wcc % 64 = 0 →
      ∃ t, exec .slotmapTakeEffect s = .next t ∧ (t.dev e).slotmap = x.value ∧ (t.dev e).slotWait = none)
    ∧ (∀ e x j, s.ev = .dev e → (s.dev e).slotWait = some x → x.pending = true → j ∈ s.jobs → j.2.part.dev = e →
      j.2.state = .running → j.2.latA < (latencies (leastShare x.value)).1 →
      exec .slotmapTakeEffect s = .next (s.dueAt ((s.wcc / 64 + 1) * 64) .slotmapTakeEffect (.dev e)))

/-- R110: SYSW of a package register by a user traps as privilege. -/
def Claim.PackageRegistersArePrivileged : Prop :=
  ∀ (s : State) (g : Guard) (a : Reg) (h : BitVec 3) (k : BitVec 4), s.guardHolds g = true → s.me.priv = false →
    Traps (.syswHmask g a h) s 8 0 0 ∧ Traps (.syswDomtabB g a k) s 8 0 0 ∧ Traps (.syswDomtabL g a k) s 8 0 0
    ∧ Traps (.syswSlotmap g a) s 8 0 0

/-- R110, R196, R307 to R313: SYSW of the package's registers. -/
def Obligations.PackageRegisterChanges : Prop :=
  Claim.InterleaveChanges ∧ Claim.SlotmapChanges ∧ Claim.PackageRegistersArePrivileged

/-- R315, R316, R317: what a walk reads: the root entry of the space, then one entry per level, at the table's address plus 8 times
the level's index bits; a valid leaf that is aligned maps its page, a valid table entry names the next level's table. -/
def Claim.TableWalks : Prop :=
  ∀ (s : State) (d va : Nat) (sp : BitVec 16) (ms : BitVec 6) (tab lo n align : Nat) (rest : List (Nat × Nat × Nat)),
    let root := (s.dev d).config.spbase + 16 * sp.toNat
    let w0 := toWord (s.dramNum d root 8)
    let w1 := toWord (s.dramNum d (root + 8) 8)
    let e := toWord (s.dramNum d (tab + 8 * (va / 2 ^ lo % 2 ^ n)) 8)
    let pa := wbits e 8 31 * 256
    let found := s.walkFrom d va sp ms ((lo, n, align) :: rest) tab
    let bad : Prop := e.getLsbD 63 = false ∨ wbits e 39 20 ≠ 0 ∨ wbits e 0 8 ≠ 0
    let rootBad : Prop := w0.getLsbD 63 = false ∨ wbits w0 39 24 ≠ 0 ∨ wbits w0 0 16 ≠ 0 ∨ wbits w1 6 58 ≠ 0
    (rootBad → s.walk d sp va = none)
    ∧ (¬rootBad → s.walk d sp va = s.walkFrom d va sp (w1.truncate 6) [(43, 13, 2 ^ 16), (30, 13, 2 ^ 12), (21, 9, 256), (16, 5, 1)]
        (wbits w0 16 23 * 2 ^ 16))
    ∧ (bad → found = none)
    ∧ (¬bad → e.getLsbD 62 = true →
      (lo = 43 ∨ pa % 2 ^ lo ≠ 0 → found = none)
      ∧ (lo ≠ 43 → pa % 2 ^ lo = 0 → ∃ x, found = some x ∧ x.space = sp ∧ x.base = va / 2 ^ lo * 2 ^ lo ∧ x.size = 2 ^ lo ∧ x.pa = pa
        ∧ x.station = va / 2 ^ 16 % 128 ∧ x.masters = ms ∧ x.wr = e.getLsbD 61 ∧ x.ex = e.getLsbD 60 ∧ x.pv = e.getLsbD 59))
    ∧ (¬bad → e.getLsbD 62 = false →
      (rest = [] ∨ pa % align ≠ 0 → found = none) ∧ (rest ≠ [] → pa % align = 0 → found = s.walkFrom d va sp ms rest pa))

/-- R317 to R319, R321: a completed walk is cached by its station, an XINV drops what it names, and a translation that a station
holds is used without a walk; which accesses a leaf refuses. -/
def Claim.Translations : Prop :=
  ∀ (s : State) (d : Nat) (sp : BitVec 16) (va : Nat),
    (∀ e, (s.dev d).cached sp va = some e → s.leaf d sp va = some e)
    ∧ ((s.dev d).cached sp va = none → s.leaf d sp va = s.walk d sp va)
    ∧ (∀ e cls use priv, va < deviceEnd → s.leaf d sp va = some e → e.masters.getLsbD cls = true → (use = .write → e.wr = true) →
      (use = .fetch → e.ex = true) → (e.pv = true → cls = 0 ∧ priv = true) →
      s.translate d sp va use cls priv = .ok (e.pa + (va - e.base)))
    ∧ (∀ cls use priv, s.leaf d sp va = none ∨ deviceEnd ≤ va → s.translate d sp va use cls priv = .error 3)
    ∧ (∀ e cls priv, va < deviceEnd → s.leaf d sp va = some e → e.masters.getLsbD cls = true → e.wr = false →
      s.translate d sp va .write cls priv = .error 4)
    ∧ (∀ e pick, s.ev = .walk d sp.toNat va pick → s.walkMoves d sp va = false → (s.dev d).cached sp va = none → s.walk d sp va = some e →
      ((s.dev d).tlb.filter fun f => f.station == e.station).length < 4096 →
      exec .translationWalk s = .next (s.modDev d fun v => { v with tlb := v.tlb ++ [e] }))
    ∧ (∀ t x b g r q, s.ev = .ctx t 0 → (s.ctx t).mode = .waiting (.reply x b) → (s.ctx t).cur = some (.xinv g r q) →
      s.ctxs.all (fun e => decide (e.2.stores = [] ∧ (e.2.mode = .free ∨ e.1 = t.code))) →
      ∃ u, exec .xinvComplete s = .next u ∧ (u.ctx t).mode = .ready
        ∧ ∀ e ∈ (u.dev (s.memDev t)).tlb, xinvNames x b e.space e.base e.size = false)

/-- R315 to R319, R321: walks, translation and XINV. -/
def Obligations.TranslationAndXinv : Prop := Claim.TableWalks ∧ Claim.Translations

/-- R66, R38, R226: a counter that has reached its target wakes the context, and a shared unit takes the next one in order. -/
def Claim.WaitsEnd : Prop :=
  ∀ (s : State) (t : CtxRef),
    (∀ v, s.ev = .ctx t 0 → (s.ctx t).mode = .waiting (.counter none v) → v.toNat ≤ s.wcc →
      exec .waitcWake s = .next (({ s with tf := t } : State).retire 4))
    ∧ (∀ k v, s.ev = .ctx t 0 → (s.ctx t).mode = .waiting (.counter (some k) v) →
      (s.part ⟨s.memDev t, k⟩).formed = true → v.toNat ≤ (s.part ⟨s.memDev t, k⟩).pcc →
      exec .waitcWake s = .next (({ s with tf := t } : State).retire 4))
    ∧ (∀ c n cycles rest turns norm, s.ev = .unit c .divider → (s.core c).divQueue = (n, cycles) :: rest →
      (s.core c).divBusy ≤ s.wcc → (s.ctx ⟨c, n⟩).mode = .waiting (.unit .divider turns norm) → 0 < turns →
      ∃ u, exec .sharedUnitGrant s = .next u ∧ (u.core c).divQueue = rest ∧ (u.core c).divBusy = s.wcc + cycles
        ∧ (u.ctx ⟨c, n⟩).mode = .waiting (.until (s.wcc + 4 * turns) norm))
    ∧ (∀ d pa va bs i f, s.ev = .ctx t 0 → (s.ctx t).mode = .waiting (.window d pa va bs) → (s.ctx t).cur = some i →
      memForm i = some f → s.askedEarlier t = false → s.moving d pa = false → ∀ p,
      s.translate d (s.ctx t).space va.toNat .write 5 false = .ok p →
      exec .windowStoreAck s = .next ((({ s with tf := t } : State).dramSet d p bs).endStore f va))
    ∧ (∀ d pa va bs i f c, s.ev = .ctx t 0 → (s.ctx t).mode = .waiting (.window d pa va bs) → (s.ctx t).cur = some i →
      memForm i = some f → s.askedEarlier t = false → s.moving d pa = false →
      s.translate d (s.ctx t).space va.toNat .write 5 false = .error c →
      Traps .windowStoreAck { s with tf := t } 30 c va)

/-- R38, R55, R66, R226: the shared units, and how waits end. -/
def Obligations.SharedUnitsAndWaits : Prop := Claim.SharedUnitsServeOrQueue ∧ Claim.WaitsEnd

/-! ## Stream words: the stack, settings and loops (R29, R113 to R115, R120 to R122, R126, R135) -/

/-- R29, R113, R115, R120, R121, R126, R135: the free words: their results on the stack, s0 first; a push onto eight entries and a
pop from too few are faults; AT and DT fix the next stamp; SETF sets a setting within its range. -/
def Obligations.StackWords : Prop :=
  ∀ (s : State) (j : Nat) (v : Job) (a b c : Word) (r : List Word), s.OnJob j v →
    let l := s.st.stack
    let set (f : Settings → Settings) : Out := .next ((s.popped 1).modSt fun t => { t with sets := f t.sets })
    (∀ x : BitVec 15, (l.length < 8 → Stacks (.lit x) s (x.zeroExtend 64 :: l)) ∧ (8 ≤ l.length → Raises (.lit x) s j v 2 0))
    ∧ (l.length ≤ 8 → Stacks .nopw s l)
    ∧ (l = a :: r → r.length < 8 →
      (∀ x : BitVec 14, Stacks (.ext x) s ((a <<< 14 ||| x.zeroExtend 64) :: r))
      ∧ (∀ n : BitVec 6, Stacks (.shls 0 n) s (a <<< n.toNat :: r) ∧ Stacks (.shls 1 n) s (a >>> n.toNat :: r)
        ∧ Stacks (.shls 2 n) s (a.sshiftRight n.toNat :: r) ∧ Raises (.shls 3 n) s j v 1 0)
      ∧ Stacks .drop s r ∧ (r.length < 7 → Stacks .dup s (a :: a :: r)) ∧ (r.length = 7 → Raises .dup s j v 2 0))
    ∧ (l = a :: b :: r → r.length < 7 → Stacks .swap s (b :: a :: r) ∧ (r.length < 6 → Stacks .over s (b :: a :: b :: r))
      ∧ Stacks .adds s ((b + a) :: r) ∧ Stacks .subs s ((b - a) :: r))
    ∧ (l = a :: b :: c :: r → r.length < 6 → Stacks .selk s ((if a = 0 then c else b) :: r))
    ∧ (l = [] → Raises .drop s j v 3 0 ∧ Raises .dup s j v 3 0 ∧ Raises .adds s j v 3 0 ∧ Raises .atW s j v 3 0
      ∧ Raises .loopW s j v 3 0)
    ∧ (l = a :: r →
      exec .atW s = .next ((s.popped 1).modSt fun t => { t with next := a.toNat, stamped := true })
      ∧ exec .dt s = .next ((s.popped 1).modSt fun t => { t with next := t.last + a.toNat, stamped := true })
      ∧ (a.toNat ≤ 1 → exec (.setf 0) s = set (fun x => { x with rnd := a.toNat })
        ∧ exec (.setf 1) s = set (fun x => { x with irnd := a.toNat }))
      ∧ (a.toNat < 2 ^ 32 → exec (.setf 2) s = set (fun x => { x with lcount := a.toNat }))
      ∧ (a.toNat < s.st.code.length → exec (.setf 3) s = set (fun x => { x with lstart := a.toNat })
        ∧ exec (.setf 4) s = set (fun x => { x with lend := a.toNat })))

/-- R122 and R114: hardware loops nest four deep; LOOP's body follows, LOOP.reg latches LSTART and LEND, which lies on an ENDL; a
taken ENDL goes back to the first word, and ends its decode cycle; the last one goes on behind the loop. That a loop with a count of 0
is no fifth nested one is the model's reading (log 103). -/
def Obligations.LoopWords : Prop :=
  ∀ (s : State) (j : Nat) (v : Job) (a : Word) (r : List Word), s.OnJob j v →
    let t := s.st
    (t.stack = a :: r →
      (a = 0 → exec .loopW s = .next ((s.popped 1).modSt fun t => { t with dec := .skipping 0, budget := 4 }))
      ∧ (a ≠ 0 → a.toNat < 2 ^ 32 → t.loops.length < 4 → exec .loopW s = .next ((s.popped 1).modSt fun t =>
          { t with loops := { count := a.toNat, start := t.pos, last := none } :: t.loops }))
      ∧ (a ≠ 0 → a.toNat < 2 ^ 32 → 4 ≤ t.loops.length → Raises .loopW s j v 6 0))
    ∧ (t.code[t.sets.lend]? = some 0xCB00 →
      (t.sets.lcount = 0 → exec .loopReg s = .next (s.modSt fun t => { t with pos := t.sets.lend + 1, budget := 4 }))
      ∧ (t.sets.lcount ≠ 0 → t.loops.length < 4 → exec .loopReg s = .next (s.modSt fun t =>
          { t with pos := t.sets.lstart
                   loops := { count := t.sets.lcount, start := t.sets.lstart, last := some t.sets.lend } :: t.loops }))
      ∧ (t.sets.lcount ≠ 0 → 4 ≤ t.loops.length → Raises .loopReg s j v 6 0))
    ∧ (t.code[t.sets.lend]? ≠ some 0xCB00 → Raises .loopReg s j v 6 0)
    ∧ (t.loops = [] → Raises .endl s j v 6 0)
    ∧ (∀ f q, t.loops = f :: q →
      (1 < f.count → exec .endl s = .next (s.modSt fun t =>
        { t with loops := { f with count := f.count - 1 } :: q, pos := f.start, budget := 4 }))
      ∧ (f.count ≤ 1 → ∀ e, f.last = some e → exec .endl s = .next (s.modSt fun t => { t with loops := q, pos := e + 1 }))
      ∧ (f.count ≤ 1 → f.last = none → exec .endl s = .next (s.modSt fun t => { t with loops := q })))

/-! ## Launch words of every stream, and the sequencer's (R115, R116, R123 to R137) -/

/-- R116, R119, R190, R200: a launch word that comes before the last operation's interval is over, below the bound of a redirect,
or with too few operands, is a fault. Which of two faults of one word is raised is the model's reading (log 27). -/
def Claim.LaunchFaults : Prop :=
  ∀ (s : State) (j : Nat) (v : Job) (i : Instr), s.OnJob j v → i = .rdv ∨ i = .fmt ∨ i = .manc ∨ i = .ppt →
    let t := s.st
    (t.next < t.last + t.lastInterval + t.lastStretch → Raises i s j v 4 2)
    ∧ (t.last + t.lastInterval + t.lastStretch ≤ t.next → ∀ b, t.bound = some b → actualStamp v t < b → Raises i s j v 4 3)
    ∧ (t.last + t.lastInterval + t.lastStretch ≤ t.next → t.bound = none → t.stack = [] → i ≠ .ppt → Raises i s j v 3 0)

/-- R123 to R125, R132, R134, R137: RDV's store follows in the order of its stamp; PPT in SEQ is a pre-emption point, elsewhere a
NOPW that launches; HALTJ ends its stream; TAKE pushes the value that a slot has had since the horizon; AWAIT declares a hold
while the tag's latest load has not landed; RDPCC pushes the written stamp. Which ranges lie in the horizon of an AWAIT is the model's
reading (log 39). -/
def Claim.ControlWords : Prop :=
  ∀ (s : State) (j : Nat) (v : Job), 
    let p := s.sf.pipe
    let c := s.clock v p
    (s.MayLaunch j v .rdv 1 → ∀ x r, s.st.stack = x :: r → Launches .rdv s 1
      (((s.popped 1).modJob j fun u => { u with
        milestones := insertMilestone (c, v.rel p.p * 8 + s.sf.eng.idx, x) u.milestones }).dueAt (s.wcc + 1) .milestoneStore
          (.jobWord j x)))
    ∧ (s.MayLaunch j v .ppt 0 →
      (s.sf.eng = .seq → Launches .ppt s 1 ((s.popped 0).modPipe p fun u => { u with pptAt := some c }))
      ∧ (s.sf.eng ≠ .seq → Launches .ppt s 1 (s.popped 0)))
    ∧ (s.MayLaunch j v .haltj 0 → ∃ t, exec .haltj s = .next t ∧ t.st.dec = .ended ∧ t.st.stack = s.st.stack
      ∧ (s.sf.eng = .seq → (t.pipe p).seqEnded = true))
    ∧ (s.MayLaunch j v .rdpcc 0 →
      (s.st.stack.length < 8 → Launches .rdpcc s 1 ((s.popped 0).modSt fun t => { t with stack := ofInt t.next :: t.stack }))
      ∧ (s.st.stack.length = 8 → Raises .rdpcc s j v 2 0))
    ∧ (∀ (e : BitVec 3) (k i : Word) (r : List Word) (o : OasisRecord) (w : Window), s.MayLaunch j v (.take e) 2 →
      v.compat = false → s.st.stack = k :: i :: r → v.oases[i.toNat]? = some o → k.toNat < o.slots.length →
      v.windows.get? i.toNat = some w →
      let x : StreamRef := ⟨p, takeEngine e⟩
      (s.stream x).started = true → (s.stream x).dec ≠ .ended →
      (w.closeAt + s.horizon v.part ≤ c → ((s.popped 2).stream x).stack.length < 8 → Launches (.take e) s 1
        ((s.popped 2).modStream x fun t => { t with stack := toWord ((w.value k.toNat).getD 0) :: t.stack }))
      ∧ (c < w.closeAt + s.horizon v.part → Raises (.take e) s j v 4 3))
    ∧ (∀ n : BitVec 4, s.MayLaunch j v (.await n) 0 →
      let u := ((s.popped 0).modPipe p fun w => w.noteAwait n.toNat c).awaitHorizon j v n.toNat c
      ((s.pipe p).latestLoad n.toNat = none → Launches (.await n) s 1 u)
      ∧ (∀ id op, (s.pipe p).latestLoad n.toNat = some (id, op) →
        (op.landed = true → Launches (.await n) s 1 u)
        ∧ (op.landed = false → Launches (.await n) s 1 ((u.modPipe p fun w =>
            { w with ops := w.ops.put id { op with awaited := true } }).declare v.part j c (.await p id)))))

/-- R123, R313: the stores of RDV words: they stand in the order of their stamps, those of one stamp in that of pipe and engine; the
next one is performed once no write of device memory of the job that it follows is left, and its line does not move. What the
completion stamp of such a write is, is the model's choice (log 90). -/
def Claim.MilestoneStores : Prop :=
  ∀ (s : State) (j stamp key : Nat) (v : Job) (x w : Word) (rest : List (Nat × Nat × Word)), s.ev = .jobWord j x →
    s.jobs.get? j = some v →
    let again : Out := .next (s.dueAt (s.wcc + 1) .milestoneStore (.jobWord j x))
    let at_ := v.rdv.toNat + 8
    let before (a b : Nat × Nat × Word) : Prop := a.1 < b.1 ∨ (a.1 = b.1 ∧ a.2.1 ≤ b.2.1)
    let follows : Prop := ∃ p ∈ v.refs, ∃ e ∈ (s.pipe p).ops, e.2.job = j ∧ e.2.writesLeft = true
      ∧ e.2.issue + e.2.interval + e.2.stretch ≤ stamp
    (v.milestones = (stamp, key, w) :: rest →
      (follows → exec .milestoneStore s = again)
      ∧ (s.storeMoves v.part.dev v.space 1 at_ 8 = true → exec .milestoneStore s = again)
      ∧ (¬follows → s.storeMoves v.part.dev v.space 1 at_ 8 = false →
        ∀ t, (s.modJob j fun u => { u with milestones := rest }).virtStore v.part.dev v.space 1 at_ 8 w.toNat = some t →
          exec .milestoneStore s = .next t))
    ∧ (∀ (a : Nat × Nat × Word) (l : List (Nat × Nat × Word)), (insertMilestone a l).Perm (a :: l)
      ∧ (l.Pairwise before → (insertMilestone a l).Pairwise before))

/-- R114 to R116, R119, R123 to R125, R132, R134, R137: the launch words that every stream has, TAKE, AWAIT and RDPCC, the
faults that any launch word meets, and the milestone stores. -/
def Obligations.LaunchWords : Prop := Claim.LaunchFaults ∧ Claim.ControlWords ∧ Claim.MilestoneStores

/-- R127 to R131, R133, R136: the words of SEQ that set its pipe: the format queue of 16 entries, code tables, tensor scales, the
anchor, live rows; windows are armed ahead of their opening, alike on every pipe; SEGT names a selector before the close. -/
def Obligations.SequencerWords : Prop :=
  ∀ (s : State) (j : Nat) (v : Job) (x y : Word) (r : List Word),
    let p := s.sf.pipe
    let c := s.clock v p
    let sets (i : Instr) (k : Nat) (f : Pipe → Pipe) : Prop := Launches i s 1 ((s.popped k).modPipe p f)
    (s.st.stack = x :: r →
      (s.MayLaunch j v .fmt 1 →
        ((s.pipe p).fmtq.length < 16 → sets .fmt 1 fun u => { u with
          fmtq := u.fmtq ++ [{ word := x, tw := u.scaleW, ta := u.scaleA, anchor := u.anchor }] })
        ∧ (16 ≤ (s.pipe p).fmtq.length → Raises .fmt s j v 10 0))
      ∧ (s.MayLaunch j v .tsclW 1 → x.toNat < 2 ^ 32 →
        (f32.expo x.toNat ≠ 255 → sets .tsclW 1 fun u => { u with scaleW := x.truncate 32 })
        ∧ (f32.expo x.toNat = 255 → Raises .tsclW s j v 14 0))
      ∧ (s.MayLaunch j v .tsclA 1 → x.toNat < 2 ^ 32 → f32.expo x.toNat ≠ 255 →
        sets .tsclA 1 fun u => { u with scaleA := x.truncate 32 })
      ∧ (s.MayLaunch j v .manc 1 → (-512 ≤ x.toInt → x.toInt ≤ 511 → sets .manc 1 fun u => { u with anchor := some x.toInt })
        ∧ (511 < x.toInt → Raises .manc s j v 7 0)))
    ∧ (s.MayLaunch j v .mancOff 0 → sets .mancOff 0 fun u => { u with anchor := none })
    ∧ (s.st.stack = x :: y :: r →
      (s.MayLaunch j v .ctab 2 → y.toNat ≤ 15 → (codeTableOk x = true → sets .ctab 2 fun u => { u with
          ctabs := u.ctabs.put y.toNat x }) ∧ (codeTableOk x = false → Raises .ctab s j v 15 0))
      ∧ (s.MayLaunch j v .shape 2 → ∀ sh, v.shape y.toNat = some sh →
        (1 ≤ x.toNat ∧ x.toNat ≤ sh.rows → sets .shape 2 fun u => { u with live := u.live.put y.toNat x.toNat })
        ∧ (x.toNat = 0 ∨ sh.rows < x.toNat → v.fault = none → v.state = .running → ∃ t w, exec .shape s = .next t
          ∧ (t.pipe p).live.get? y.toNat = some sh.rows ∧ t.jobs.get? j = some w ∧ (w.fault.map fun f => f.code) = some 9))
      ∧ (s.MayLaunch j v .segt 2 → ∀ o t d, v.oases[y.toNat]? = some o → o.segtab = some t → o.slots[x.toNat]? = some d →
        d.bound < (v.segtabs[t]?.getD []).length → (∀ w, v.windows.get? y.toNat = some w → c < w.closeAt) →
        Launches .segt s 1 ((s.popped 2).modJob j fun u => { u with selectors := u.selectors.put y.toNat x.toNat }))
      ∧ (s.MayLaunch j v .oasis 2 → v.compat = false → ∀ o, v.oases[x.toNat]? = some o →
        let at_ : Int := (v.start : Int) + (toWord o.openAt + y).toNat + s.st.bias
        let fresh : Window :=
          { openAt := at_.toNat, closeAt := at_.toNat + o.len, armedAt := s.wcc, armedBy := [p.p], closed := false,
            posted := o.slots.map fun _ => none, fixed := o.slots.map fun _ => none, sel := 0, lateAt := none }
        (at_ ≤ c → Raises .oasis s j v 4 5)
        ∧ ((c : Int) < at_ → v.windows = [] → Launches .oasis s 1 ((s.popped 2).arm j x.toNat o fresh))
        ∧ (∀ w, (c : Int) < at_ → v.windows.get? x.toNat = some w → c < w.closeAt → (∀ e ∈ v.windows, p.p ∉ e.2.armedBy) →
          (w.openAt = at_.toNat ∧ w.closeAt = at_.toNat + o.len →
            Launches .oasis s 1 ((s.popped 2).arm j x.toNat o { w with armedBy := w.armedBy ++ [p.p] }))
          ∧ (¬(w.openAt = at_.toNat ∧ w.closeAt = at_.toNat + o.len) → Raises .oasis s j v 17 0))
        ∧ (∀ e ∈ v.windows, (c : Int) < at_ → p.p ∈ e.2.armedBy → c < e.2.closeAt →
          rangesOverlap at_.toNat o.len e.2.openAt (e.2.closeAt - e.2.openAt) = true → Raises .oasis s j v 17 0)))

/-! ## Engine words (R138 to R175) -/

/-- R138 to R144, R149: the loads: the interval, the units with their sources and destinations in ascending order, the tag, and the
deadline of an untagged load; peer fetches; ranges that leave a buffer or their address space, addresses that do not translate (all
of them in the issue cycle, log 104) and operands off their alignment are faults. -/
def Obligations.LoadWords : Prop :=
  ∀ (s : State) (j : Nat) (v : Job) (n : BitVec 4) (a b c d : Word) (r : List Word),
    let p := s.sf.pipe
    let x := a.toNat
    let y := b.toNat
    let z := c.toNat
    let w := d.toNat
    let readable (va k : Nat) : Prop := s.engineFault v.part.dev v.space .read va (pagesOf va k) = none ∧ va + k ≤ deviceEnd
    let load (i : Instr) (pops interval lat : Nat) (dest : Buf) (units : List LoadUnit) : Prop :=
      Operates i s j v pops interval [] fun op => op.tag = n.toNat ∧ op.dest = dest
        ∧ (op.units.map fun u => { u with due := none }) = units ∧ op.deadline = op.issue + lat + interval
    (s.st.stack = a :: b :: c :: r → x % 64 = 0 → y % 64 = 0 → z % 64 = 0 → 64 ≤ x →
      (s.MayLaunch j v (.ldw n) 3 → y + x ≤ 0x180000 → readable z x →
        load (.ldw n) 3 (x / 64) v.latA .w (unitsOf z y x))
      ∧ (s.MayLaunch j v (.ldw n) 3 → x ≤ 0x180000 → 0x180000 < y + x → Raises (.ldw n) s j v 8 0)
      ∧ (s.MayLaunch j v (.ldw n) 3 → y + x ≤ 0x180000 → z < deviceEnd → deviceEnd < z + x → Raises (.ldw n) s j v 8 0)
      ∧ (s.MayLaunch j v (.ldw n) 3 → y + x ≤ 0x180000 → deviceEnd ≤ z → Raises (.ldw n) s j v 19 0)
      ∧ (s.MayLaunch j v (.lds n) 3 → y + x ≤ 0x10000 → readable z x →
        load (.lds n) 3 (x / 64) v.latA .w (unitsOf z (0x170000 + y) x))
      ∧ (s.MayLaunch j v (.tfw n) 3 → y + x ≤ 0x180000 → 0xE0 ≤ z / 2 ^ 48 → z / 2 ^ 48 < 0xF0 → z / 2 ^ 47 % 32 ≤ 23 →
        z / 2 ^ 38 % 8 = 0 → 2 ^ 38 < z % 2 ^ 38 + x → Raises (.tfw n) s j v 8 0)
      ∧ (s.MayLaunch j v (.tfw n) 3 → y + x ≤ 0x180000 → z % 2 ^ 38 + x ≤ 2 ^ 38 →
        (∀ t u, s.tierTarget v.part.dev v.space (toWord z) = .ok t → s.tierTarget v.part.dev v.space (toWord (z + x - 64)) = .ok u →
          load (.tfw n) 3 (x / 64) 1600 .w (unitsOf z y x))
        ∧ (∀ e, s.tierTarget v.part.dev v.space (toWord z) = .error e → Raises (.tfw n) s j v e 0)))
    ∧ (s.st.stack = a :: b :: c :: r → s.MayLaunch j v (.ldw n) 3 → x % 64 ≠ 0 → Raises (.ldw n) s j v 7 0)
    ∧ (∀ sh k, s.st.stack = a :: b :: c :: d :: r → v.shape z = some sh → sh.buf = .a → sh.stride % 64 = 0 → sh.base % 64 = 0 →
      s.rowCount p z x sh = .ok k →
      (y % 64 = 0 → w % 64 = 0 → 64 ≤ y → y ≤ sh.stride →
        (s.MayLaunch j v (.lda n) 4 → readable w (k * y) → load (.lda n) 4 (k * y / 64) v.latA .a (rowUnits w y k sh))
        ∧ (∀ t u, s.MayLaunch j v (.tfa n) 4 → w % 2 ^ 38 + k * y ≤ 2 ^ 38 → s.tierTarget v.part.dev v.space (toWord w) = .ok t →
          s.tierTarget v.part.dev v.space (toWord (w + k * y - 64)) = .ok u →
          load (.tfa n) 4 (k * y / 64) 1600 .a (rowUnits w y k sh)))
      ∧ (s.MayLaunch j v (.gta n) 4 → w % 64 = 0 → y % 4 = 0 → 1 ≤ k ∧ k ≤ 4096 → y + 4 * k ≤ 0x180000 →
        Operates (.gta n) s j v 4 (k * (sh.stride / 64)) [] fun op => op.tag = n.toNat
          ∧ op.units.length = k * (sh.stride / 64) ∧ op.plan = [⟨0, .read p .a y (4 * k) 0 false⟩, ⟨0, .complete 0⟩]))
    ∧ (∀ sh, s.st.stack = a :: b :: c :: d :: r → v.shape z = some sh → sh.buf = .a → sh.stride % 64 = 0 → sh.base % 64 = 0 →
      y % 64 = 0 → w % 64 = 0 → 64 ≤ y → y ≤ sh.stride → s.MayLaunch j v (.lda n) 4 → sh.rows < x → Raises (.lda n) s j v 9 0)
    ∧ (s.st.stack = a :: b :: c :: r → s.MayLaunch j v (.fillc n) 3 → y % 32 = 0 → z % 32 = 0 → 1 ≤ x ∧ x ≤ 131072 →
      y + 32 * x ≤ 0x400000 → readable z (32 * x) → load (.fillc n) 3 ((x + 1) / 2) v.latA .c (unitsOf z y (32 * x)))
    ∧ (s.st.stack = a :: b :: c :: d :: r → v.compat = false → x % 64 = 0 → y % 64 = 0 → w % 64 = 0 → 0 < x → x ≤ 0x180000 →
      y + x ≤ 0x180000 → w < 2 ^ 32 → z ≠ 0 → z < 2 ^ 24 → (w + x - 1) / 0x180000 < 24 →
      (∀ q, q < 24 → w / 0x180000 ≤ q → q ≤ (w + x - 1) / 0x180000 → p.p / 24 * 24 + q ∈ v.pipes) →
      (∀ q, q < 24 → bit z q = true → p.p / 24 * 24 + q ∈ v.pipes) → p.p / 24 < 8 →
      (s.MayLaunch j v (.pfw 0) 4 → Operates (.pfw 0) s j v 4 (x / 64 + ((w + x - 1) / 0x180000 - w / 0x180000)) [] fun op =>
        (⟨op.interval + 11, .complete 0⟩ : Planned) ∈ op.plan)
      ∧ (s.MayLaunch j v (.pfa 0) 4 → Operates (.pfa 0) s j v 4 (x / 64 + ((w + x - 1) / 0x180000 - w / 0x180000)) [] fun op =>
        (⟨op.interval + 11, .complete 0⟩ : Planned) ∈ op.plan))

/-- R152 to R162: MMA, MMAZ, DWA and DWAZ take the oldest format, check it, and complete row r in the cycle of R158 or R161; the
row's result is what `Accumulation` states. -/
def Claim.TileLaunches : Prop :=
  ∀ (s : State) (j : Nat) (v : Job) (x : BitVec 5) (rr pw pa : BitVec 1) (e : FmtEntry) (q : List FmtEntry)
    (c w a m g : Word) (r : List Word),
    let K := pairDepth e.word
    let cpr := pairTime e.word
    let wf := fmtW e.word
    (s.pipe s.sf.pipe).fmtq = e :: q →
    (∀ (rows base rs : Nat) (pA pW : PipeRef) (a1 w1 : Nat), s.st.stack = c :: w :: a :: m :: r →
      formatOk e.word false = true → x = 0 ∨ x.toNat = wf →
      (let rowBytes := K * elementBits (fmtA e.word) / 8
       let tile := if isEc wf then 64 * (4 * K) else K * 128 * elementBits wf / 8
       let tw := if isEc wf then K / 2 else ceilDiv tile 512
       let far := if pa = 1 ∨ pw = 1 then 12 else 0
       let ec : List Range := if isEc wf then [⟨pW, .w, w1, tile⟩] else []
       let slots : List Range := [⟨s.sf.pipe, .c, c.toNat, rows * 4096⟩]
       let op (i : Instr) : Prop := Operates i s j v 4 (Nat.max tw (rows * cpr) + far) (ec ++ if zeroesFirst i then [] else slots) fun o =>
         o.fmt = some e ∧ o.rows = rows ∧ ∀ k, k < rows → (⟨Nat.max tw ((k + 1) * cpr) + 9 + far, .complete k⟩ : Planned) ∈ o.plan
       tileRows s v rr m e.word rowBytes = .ok (rows, base, rs) → peerOperand s v pa a.toNat = some (pA, a1) →
       peerOperand s v pw w.toNat = some (pW, w1) → 1 ≤ rows → rows ≤ 1024 → a.toNat % 64 = 0 → w.toNat % 64 = 0 →
       c.toNat % 32 = 0 → base + a1 + ((rows - 1) * rs + rowBytes) ≤ 0x180000 → w1 + tile ≤ 0x170000 →
       (fmtSbw e.word = true → wbits e.word 36 10 * 64 + K * 128 / blockSize wf ≤ 0x10000) →
       (fmtSba e.word = true → wbits e.word 26 10 * 64 + rows * (K / blockSize (fmtA e.word)) ≤ 0x10000) →
       c.toNat + rows * 4096 ≤ 0x400000 →
       (s.MayLaunch j v (.mma x rr pw pa) 4 → op (.mma x rr pw pa))
       ∧ (s.MayLaunch j v (.mmaz x rr pw pa) 4 → op (.mmaz x rr pw pa))))
    ∧ (s.st.stack = g :: c :: w :: a :: m :: r → formatOk e.word true = true → x = 0 ∨ x.toNat = wf →
      (let y := windowGeometry g a
       let z := elementBits (fmtA e.word) / 8
       let n := m.toNat
       let tile := y.kh * y.kw * 128 * (elementBits wf / 8)
       let tw := ceilDiv tile 512
       let slots : List Range := [⟨s.sf.pipe, .c, c.toNat, n * 4096⟩]
       let op (i : Instr) : Prop := Operates i s j v 5 (Nat.max tw ((y.kw - 1 + n) * cpr)) (if zeroesFirst i then [] else slots) fun o =>
         o.fmt = some e ∧ o.rows = n ∧ ∀ k, k < n → (⟨Nat.max tw ((y.kw + k) * cpr) + 9, .complete k⟩ : Planned) ∈ o.plan
       1 ≤ n → n ≤ 1024 → windowOk g a z = true → w.toNat % 64 = 0 → c.toNat % 32 = 0 →
       (∀ ty, ty < y.kh → y.tapRow ty + ((y.kw + n - 2) * y.px * 64 + 128 * z) ≤ 0x180000) → w.toNat + tile ≤ 0x170000 →
       c.toNat + n * 4096 ≤ 0x400000 →
       (s.MayLaunch j v (.dwa x) 5 → op (.dwa x)) ∧ (s.MayLaunch j v (.dwaz x) 5 → op (.dwaz x))))

/-- R153, R162: a tile command with no format (too few operands are found before that, log 89), with one that breaks R153, or with a
suffix that names another. -/
def Claim.TileFaults : Prop :=
  ∀ (s : State) (j : Nat) (v : Job) (x : BitVec 5) (rr pw pa : BitVec 1), s.MayLaunch j v (.mma x rr pw pa) 4 →
    ((s.pipe s.sf.pipe).fmtq = [] → Raises (.mma x rr pw pa) s j v 11 0)
    ∧ (∀ e q, (s.pipe s.sf.pipe).fmtq = e :: q → formatOk e.word false = false → v.fault = none → v.state = .running →
      ∃ t u, exec (.mma x rr pw pa) s = .next t ∧ (t.pipe s.sf.pipe).fmtq = q ∧ t.jobs.get? j = some u
        ∧ (u.fault.map fun f => f.code) = some 12)
    ∧ (∀ e q, (s.pipe s.sf.pipe).fmtq = e :: q → formatOk e.word false = true → x ≠ 0 → x.toNat ≠ fmtW e.word → v.fault = none →
      v.state = .running → ∃ t u, exec (.mma x rr pw pa) s = .next t ∧ (t.pipe s.sf.pipe).fmtq = q ∧ t.jobs.get? j = some u
        ∧ (u.fault.map fun f => f.code) = some 13)

/-- R152 to R162: the tile commands. -/
def Obligations.TileCommands : Prop := Claim.TileLaunches ∧ Claim.TileFaults

/-- R163 to R175: a VXE word whose operands keep R164 and lie in their buffers runs in ⌈N ÷ 1024⌉ steps; one that breaks R164 is
bad-geometry, one outside its buffers buffer-range; of the two, bad-geometry comes first, which is the model's choice (log 89). -/
def Claim.VectorLaunches : Prop :=
  ∀ (s : State) (j : Nat) (v : Job) (t d : BitVec 5) (c o y : BitVec 3) (k : BitVec 1),
    let runs (i : Instr) (pops : Nat) (ok : List Word → Bool) : Prop :=
      s.MayLaunch j v i pops →
      (let l := s.st.stack.take pops
       let f := vecForm i l
       let steps := ceilDiv (countN f.count) 1024
       (f.ok = true → ok l = true → f.inRange = true → Operates i s j v pops (steps * f.stepTime) [] fun op =>
          op.plan = ((List.range steps).map fun x => f.step s.sf.pipe x).flatten ∧ op.rnd = s.st.sets.rnd ∧ op.irnd = s.st.sets.irnd)
       ∧ (f.ok = false → Raises i s j v 7 0) ∧ (f.ok = true → ok l = true → f.inRange = false → Raises i s j v 8 0))
    let any (_ : List Word) : Bool := true
    runs (.vadd t) 4 any ∧ runs (.vsub t) 4 any ∧ runs (.vmul t) 4 any ∧ runs (.vfma t) 5 any ∧ runs (.vmax t) 4 any
    ∧ runs (.vmin t) 4 any ∧ runs (.vabs t) 3 any ∧ runs (.vexp t) 3 any ∧ runs (.vrcp t) 3 any ∧ runs (.vrsq t) 3 any
    ∧ runs (.vsel t) 5 any ∧ runs (.vcmp t c) 4 any ∧ runs (.vred t o) 3 any ∧ runs (.vcvt d y) 3 any ∧ runs (.vmov t) 3 any
    ∧ runs (.vcmpu t c) 4 any
    ∧ runs (.vres d k) (if targetInt d k then 4 else 3) (fun l => !targetInt d k || requantOk (arg l 3) 95)
    ∧ runs (.vrq d k) 5 (fun l => requantOk (arg l 4) 63)

/-- R165, R168 to R170, R173 to R175: what the elements are: the operation on the FP32 values of the sources, rounded to the type; a
select by mask bit; the mask bit of a condition, of unresolved slots under their order of R174; a slot resolved; VRQ saturates to its
target; the special values of R169, a NaN staying one. -/
def Claim.VectorElements : Prop :=
  ∀ (op : Op) (f : VecForm) (x k : Nat) (t : BitVec 5),
    let s (i : Nat) : Nat := op.source f x i k
    let h := suffixFloat t
    let wide (i : Nat) : Nat := widenElement h (s i)
    (op.word = .vadd t → op.vecElement f x k = narrowElement h (f32.add .rne (wide 0) (wide 1)))
    ∧ (op.word = .vsub t → op.vecElement f x k = narrowElement h (f32.sub .rne (wide 0) (wide 1)))
    ∧ (op.word = .vmul t → op.vecElement f x k = narrowElement h (f32.mul .rne (wide 0) (wide 1)))
    ∧ (op.word = .vfma t → op.vecElement f x k = narrowElement h (f32.fma .rne (wide 2) (wide 0) (wide 1)))
    ∧ (op.word = .vsel t → op.vecElement f x k = if s 0 = 1 then s 1 else s 2)
    ∧ (op.word = .vmov t → op.vecElement f x k = s 0)
    ∧ (op.word = .vmax t → op.vecElement f x k = narrowElement h (f32.max (wide 0) (wide 1)))
    ∧ (op.word = .vmin t → op.vecElement f x k = narrowElement h (f32.min (wide 0) (wide 1)))
    ∧ (op.word = .vabs t → op.vecElement f x k = s 0 % 2 ^ h.signBit)
    ∧ (op.word = .vexp t → op.vecElement f x k = narrowElement h (vecExp (wide 0)))
    ∧ (op.word = .vrcp t → op.vecElement f x k = narrowElement h (f32.div .rne 0x3F800000 (wide 0)))
    ∧ (op.word = .vrsq t → op.vecElement f x k = narrowElement h (vecRsq (wide 0)))
    ∧ (∀ c : BitVec 3,
      (op.word = .vcmp t c → op.vecElement f x k
        = if vecCond c (h.isNan (s 0) || h.isNan (s 1)) (h.value (s 0)) (h.value (s 1)) then 1 else 0)
      ∧ (op.word = .vcmpu t c → ∀ z, op.slots.get? k = some z → op.vecElement f x k
        = if vecCond c (z.n || (z.pi && z.mi) || z.v || h.isNan (s 0))
            (if z.pi then .inf false else if z.mi then .inf true else if z.count = 0 then .fin false 0 0 else z.value) (h.value (s 0))
          then 1 else 0))
    ∧ (∀ (d : BitVec 5) (i : BitVec 1) (z : Slot), op.word = .vres d i → op.slots.get? k = some z →
      op.vecElement f x k = resolveSlot d i ((op.args[3]?).getD 0) op.rnd op.irnd z)
    ∧ (∀ (d : BitVec 5) (i : BitVec 1), op.word = .vrq d i →
      op.vecElement f x k = vecRequant d i ((op.args[4]?).getD 0) op.irnd (s 0) (s 1))
    ∧ vecExp 0 = 0x3F800000 ∧ vecExp 0x80000000 = 0x3F800000 ∧ vecExp 0x7F800000 = 0x7F800000 ∧ vecExp 0xFF800000 = 0
    ∧ vecRsq 0 = 0x7F800000 ∧ vecRsq 0x80000000 = 0xFF800000 ∧ vecRsq 0x7F800000 = 0 ∧ vecRsq 0xFF800000 = 0x7FC00000
    ∧ (∀ a : Nat, f32.isNan a = true → vecExp a = f32.quiet a ∧ vecRsq a = f32.quiet a ∧ f32.isNan (f32.quiet a) = true)
    ∧ (∀ (un : Bool) (a b : FVal), vecCond 0 un a b = (!un && a.eq b) ∧ vecCond 1 un a b = (!un && a.lt b)
      ∧ vecCond 2 un a b = (!un && (a.lt b || a.eq b)) ∧ vecCond 3 un a b = un ∧ vecCond 4 un a b = (un || !a.eq b)
      ∧ vecCond 5 un a b = (!un && b.lt a) ∧ vecCond 6 un a b = (!un && (b.lt a || a.eq b)))
    ∧ (∀ (q : Word) (irnd a b : Nat),
      let r := roundShift (signed 32 a * signed 32 b) (wbits q 0 7) irnd + signed 32 (wbits q 32 32)
      (vecRequant 15 0 q irnd a b : Int) = clamp 0 255 r
      ∧ signed 8 (vecRequant 14 0 q irnd a b) = clamp (-2 ^ 7) (2 ^ 7 - 1) r
      ∧ signed 16 (vecRequant 13 0 q irnd a b) = clamp (-2 ^ 15) (2 ^ 15 - 1) r
      ∧ signed 32 (vecRequant 0 1 q irnd a b) = clamp (-2 ^ 31) (2 ^ 31 - 1) r)

/-- R171: VRED reduces a group: .sum by a tree of adjacent pairs, .max, .min and .amax by FMAX and FMIN from the first element on; the
result is quieted and rounded to the type. -/
def Claim.VectorReductions : Prop :=
  ∀ (op : Op) (f : VecForm) (x k : Nat) (t : BitVec 5) (o : BitVec 3) (vs : List Nat) (a : Nat),
    let h := suffixFloat t
    let ends (r : Nat) : Nat := narrowElement h (if f32.isNan r then f32.quiet r else r)
    let wide := (a :: vs).map (widenElement h)
    let mags := wide.map f32.abs
    let n := wbits f.count 24 4
    (op.word = .vred t o → op.vecElement f x k
      = vecReduce h o n ((List.range (2 ^ n)).map fun i => op.source f x 0 (k * 2 ^ n + i)))
    ∧ (∀ g, vecReduce h 0 g (a :: vs) = ends (treeSum g wide))
    ∧ (∀ g, vecReduce h 1 g (a :: vs) = ends (wide.tail.foldl f32.max (wide.headD 0)))
    ∧ (∀ g, vecReduce h 2 g (a :: vs) = ends (wide.tail.foldl f32.min (wide.headD 0)))
    ∧ (∀ g, vecReduce h 3 g (a :: vs) = ends (mags.tail.foldl f32.max (mags.headD 0)))
    ∧ treeSum 0 [a] = a
    ∧ (∀ (g : Nat) (l : List Nat), l.length = 2 ^ (g + 1) →
      treeSum (g + 1) l = f32.add .rne (treeSum g (l.take (2 ^ g))) (treeSum g (l.drop (2 ^ g))))

/-- R172, R208: VCVT of one element: rounded once to nearest-even from the exact source; integers saturate, and a NaN becomes 0; an
infinity stays one where the destination has one, and becomes the largest finite value of its sign otherwise; a NaN becomes the
destination's NaN with its sign. -/
def Claim.VectorConversions : Prop :=
  ∀ (y : BitVec 3) (v : Nat), y.toNat ≤ 2 →
    let src := if y = 1 then f16 else if y = 2 then bf16 else f32
    let x := src.value v
    let sign := if src.sign v then 128 else 0
    v < 2 ^ (src.signBit + 1) →
    (src.isNan v = false → vecConvert 1 y v = f32.round .rne x ∧ vecConvert 2 y v = f16.round .rne x
      ∧ vecConvert 3 y v = bf16.round .rne x
      ∧ signed 16 (vecConvert 13 y v) = x.toIntSat .rne (-2 ^ 15) (2 ^ 15 - 1)
      ∧ signed 8 (vecConvert 14 y v) = x.toIntSat .rne (-2 ^ 7) (2 ^ 7 - 1))
    ∧ (src.isNan v = true → vecConvert 4 y v = 0x7F + sign ∧ vecConvert 5 y v = 0x7E + sign ∧ vecConvert 6 y v = 0x7F + sign
      ∧ vecConvert 13 y v = 0 ∧ vecConvert 14 y v = 0
      ∧ f32.isNan (vecConvert 1 y v) = true ∧ f16.isNan (vecConvert 2 y v) = true ∧ bf16.isNan (vecConvert 3 y v) = true)
    ∧ (∀ neg, x = .inf neg → vecConvert 4 y v = 0x7E + sign ∧ vecConvert 5 y v = 0x7C + sign ∧ vecConvert 6 y v = 0x7E + sign)
    ∧ (∀ neg m e, x = .fin neg m e → vecConvert 4 y v = (⟨4, 3, 7, 0x7E⟩ : NarrowFmt).round none x
      ∧ vecConvert 5 y v = (⟨5, 2, 15, 0x7B⟩ : NarrowFmt).round (some 0x7C) x
      ∧ vecConvert 6 y v = (⟨3, 4, 3, 0x7E⟩ : NarrowFmt).round none x
      ∧ ∀ (g : NarrowFmt) (i : Option Nat), g.round i x = (if neg then 128 else 0) + g.round i (.fin false m e)
        ∧ (g.most < 128 → g.round i (.fin false m e) ≤ g.most))

/-- R163 to R175, R208: the vector engine's words. -/
def Obligations.VectorWords : Prop :=
  Claim.VectorLaunches ∧ Claim.VectorElements ∧ Claim.VectorReductions ∧ Claim.VectorConversions

/-- R145 to R149: the copy engine's words: one line of A, 128 slots or two slots a cycle; a resolve to A completes group g in
issue + g + 6, a selection after its interval. -/
def Claim.CopyLaunches : Prop :=
  ∀ (s : State) (j : Nat) (v : Job) (a b c d e : Word) (r : List Word) (h : BitVec 5) (k : BitVec 1),
    let x := a.toNat
    let y := b.toNat
    let z := c.toNat
    let writable (va n : Nat) : Prop := s.engineFault v.part.dev v.space .write va (pagesOf va n) = none ∧ va + n ≤ deviceEnd
    let has (n : Nat) (i : Nat) (op : Op) : Prop := (⟨n, .complete i⟩ : Planned) ∈ op.plan
    (s.st.stack = a :: b :: c :: r → x % 64 = 0 → y % 64 = 0 → z % 64 = 0 → 0 < x → x ≤ 0x180000 → z + x ≤ 0x180000 →
      (s.MayLaunch j v .cpaa 3 → y + x ≤ 0x180000 → (z + x ≤ y ∨ y + x ≤ z) →
        Operates .cpaa s j v 3 (x / 64) [] fun op => ∀ n, n < x / 64 → has (n + 2) n op)
      ∧ (s.MayLaunch j v .cpaa 3 → y + x ≤ 0x180000 → ¬(z + x ≤ y ∨ y + x ≤ z) → Raises .cpaa s j v 7 0)
      ∧ (s.MayLaunch j v .cpah 3 → writable y x →
        Operates .cpah s j v 3 (x / 64) [] fun op => ∀ n, n < x / 64 → has n n op))
    ∧ (s.st.stack = a :: b :: c :: r → z % 32 = 0 → y % 32 = 0 → 1 ≤ x ∧ x ≤ 131072 → z + 32 * x ≤ 0x400000 →
      s.MayLaunch j v .spill 3 → writable y (32 * x) →
        Operates .spill s j v 3 ((x + 1) / 2) [] fun op => ∀ n, n < ceilDiv x 128 → has n n op)
    ∧ (let pops := if targetInt h k then 4 else 3
       let size := targetSize h k
       s.st.stack = a :: b :: c :: d :: r → 1 ≤ x ∧ x ≤ 131072 → z % 32 = 0 → y % size = 0 → z + 32 * x ≤ 0x400000 →
       (targetInt h k = true → requantOk d.toNat 95 = true) →
       (s.MayLaunch j v (.cprs h k) pops → y + x * size ≤ 0x180000 → Operates (.cprs h k) s j v pops (ceilDiv x 128) [] fun op =>
          ∀ n, n < ceilDiv x 128 → has (n + 6) n op)
       ∧ (s.MayLaunch j v (.cprh h k) pops → writable y (x * size) →
          Operates (.cprh h k) s j v pops (ceilDiv x 128) [] fun op => ∀ n, n < ceilDiv x 128 → has n n op))
    ∧ (let n := z * y
       let size := (targetFloat h).bytes
       let op (i : Instr) (groups most : Nat) : Prop :=
         let out := groups * x * (size + 4) + 4 * groups
         s.MayLaunch j v i 5 → 1 ≤ x → x ≤ 64 → x ≤ most → 1 ≤ n → n ≤ 65536 → d.toNat % 32 = 0 → e.toNat % 64 = 0 →
         d.toNat + 32 * n ≤ 0x400000 → e.toNat + out ≤ 0x180000 →
         let blocks := ceilDiv (ceilDiv out 64) 32
         Operates i s j v 5 (ceilDiv n 128 + x) [] fun op => ∀ k, k < blocks → has (op.interval + 6 - blocks + k) k op
       s.st.stack = a :: b :: c :: d :: e :: r → op (.topr h) z y ∧ op (.topc h) y z)

/-- R147, R223, R224: the value that a slot resolves to. To a float: the special patterns of Table 5 in their order, else its exact
value rounded once. To an integer: 0 for an unordered slot and else the exact value ÷ 2^s rounded once to nearest, ties to even or
away from zero, plus the offset, saturated; an infinite slot gives the extreme of its sign. -/
def Claim.SlotResolves : Prop :=
  ∀ (k : Slot) (rnd s irnd bits : Nat) (off : Int),
    let pattern (f : FloatFmt) (a b c : Nat) : Nat := if f = f32 then a else if f = bf16 then b else c
    let nan : Bool := k.n || (k.pi && k.mi)
    let sat (r : Int) : Int := max (-(2 ^ (bits - 1) : Int)) (min (2 ^ (bits - 1) - 1) r)
    let w := k.wv.toInt
    let e := k.anchor.toInt - 64 - s
    (∀ f, f = f32 ∨ f = bf16 ∨ f = f16 →
      (nan = true → k.resolveFloat f rnd = pattern f 0x7FC00000 0x7FC0 0x7E00)
      ∧ (nan = false → k.pi = true → k.resolveFloat f rnd = pattern f 0x7F800000 0x7F80 0x7C00)
      ∧ (nan = false → k.pi = false → k.mi = true → k.resolveFloat f rnd = pattern f 0xFF800000 0xFF80 0xFC00)
      ∧ (nan = false → k.pi = false → k.mi = false → k.v = true → k.resolveFloat f rnd = pattern f 0x7FC00A00 0x7FC1 0x7E01)
      ∧ (nan = false → k.pi = false → k.mi = false → k.v = false → k.resolveFloat f rnd = if w = 0 then 0 else
          f.round (if rnd = 0 then .rne else .rtz) (.fin (decide (w < 0)) w.natAbs (k.anchor.toInt - 64))))
    ∧ (nan = true ∨ k.v = true → k.resolveInt s off irnd bits = sat off)
    ∧ (nan = false → k.v = false →
      (k.pi = true → k.resolveInt s off irnd bits = 2 ^ (bits - 1) - 1)
      ∧ (k.pi = false → k.mi = true → k.resolveInt s off irnd bits = -(2 ^ (bits - 1) : Int))
      ∧ (k.pi = false → k.mi = false → ∃ r : Int, k.resolveInt s off irnd bits = sat (r + off)
        ∧ (0 ≤ e → r = w * 2 ^ e.toNat)
        ∧ (e < 0 → let unit : Int := 2 ^ (-e).toNat
          |2 * (r * unit - w)| ≤ unit
          ∧ (|2 * (r * unit - w)| = unit → (irnd = 1 → |w| < |r| * unit) ∧ (irnd = 0 → r % 2 = 0)))))
    ∧ (∀ (h : BitVec 5) (i : BitVec 1) (q : Word),
      let n := 8 * targetSize h i
      (targetInt h i = true →
        (resolveSlot h i q rnd irnd k : Int) = k.resolveInt (wbits q 0 7) (signed 32 (wbits q 32 32)) irnd n % 2 ^ n)
      ∧ (targetInt h i = false → resolveSlot h i q rnd irnd k = k.resolveFloat (targetFloat h) rnd))

/-- R148: what a selection gives for a group: its k greatest values that are no NaN, greatest first, equal ones by lower index; the ranks
left over hold the default NaN and 0xFFFFFFFF; whether the group held a NaN; and where the values, indices and flags stand. -/
def Claim.Selections : Prop :=
  ∀ (f : FloatFmt) (k : Nat) (vs : List Nat),
    let r := selectTop f k vs
    let candidate (x : Nat × Nat) : Prop := vs[x.1]? = some x.2 ∧ f.isNan x.2 = false
    let above (x y : Nat × Nat) : Prop :=
      (f.value y.2).lt (f.value x.2) = true ∨ ((f.value x.2).lt (f.value y.2) = false ∧ x.1 < y.1)
    (r.2 = true ↔ ∃ v ∈ vs, f.isNan v = true)
    ∧ (∃ l : List (Nat × Nat), r.1 = l ++ List.replicate (k - l.length) (0xFFFFFFFF, f.nan) ∧ l.length ≤ k
      ∧ (∀ x ∈ l, candidate x) ∧ l.Pairwise above
      ∧ ∀ x, candidate x → x ∉ l → l.length = k ∧ ∀ y ∈ l, above y x)
    ∧ (∀ (groups : List (List Nat)) (g : Nat) (vs : List Nat), groups[g]? = some vs →
      let out := selectionBytes f k groups
      let z := f.bytes
      let n := groups.length
      (∀ (j : Nat) (x : Nat × Nat), (selectTop f k vs).1[j]? = some x →
        (out.drop ((g * k + j) * z)).take z = leBytes z x.2 ∧ (out.drop (n * k * z + (g * k + j) * 4)).take 4 = leBytes 4 x.1)
      ∧ (out.drop (n * k * (z + 4) + 4 * g)).take 4 = leBytes 4 (if (selectTop f k vs).2 then 1 else 0))

/-- R145 to R149, R223, R224: the copy engine's words, the resolve of a slot and the selections. -/
def Obligations.CopyWords : Prop := Claim.CopyLaunches ∧ Claim.SlotResolves ∧ Claim.Selections

/-! ## Timed events (R119, R123, R125, R140, R141, R145, R157, R158, R162, R167, R330, R331) -/

/-- R140, R141, R142, R198, R271, R292: the request of a unit of a load reads the bytes of its source, all at once where a reserved
slot is its, and else words of the memory's choosing (log 13); the unit then lands with them in a bank cycle that is free; a peer
fetch completes at its destinations; an untagged load past its deadline is late-load. -/
def Claim.Landings : Prop :=
  ∀ (s : State) (p : PipeRef) (id u : Nat) (op : Op) (v : Job), s.ev = .op p id u → (s.pipe p).ops.get? id = some op →
    s.jobs.get? op.job = some v →
    (∀ (i : BitVec 4) (x : LoadUnit), op.word = .ldw i ∨ op.word = .lds i ∨ op.word = .lda i ∨ op.word = .gta i ∨ op.word = .tfw i
        ∨ op.word = .tfa i ∨ op.word = .fillc i → (∀ y ∈ op.plan, y.act ≠ .complete u) → op.units[u]? = some x → x.landed = false →
      (op.ofTier && s.tierSilent v.part.dev x.addr) = false →
      (∀ bs, x.got.length < x.len → s.unitMoves op v x = false →
        (let left := x.len - x.got.length
         let c := s.pick (ceilDiv left 8)
         let t := c.2.putOp p id { op with units := op.units.set u { x with got := x.got ++ bs } }
         c.2.unitBytes op v x x.got.length (if x.due.isSome then left else left - 8 * c.1) = .ok bs →
         exec .loadLanding s = .next (match x.due with
           | some n => t.dueAt (Nat.max n s.wcc) .loadLanding (.op p id u)
           | none => t.later .loadLanding (.op p id u))))
      ∧ (x.got.length = x.len → s.bankWaits op.job p op.dest x.off x.len = false → s.bankFree p op.dest x.off = true →
        exec .loadLanding s = .next ((((s.bufSet p op.dest x.off x.got).useBank p op.dest x.off).putOp p id
          { op with units := op.units.set u { x with got := [], landed := true } }).loadDone p id))
      ∧ (x.got.length = x.len → s.bankFree p op.dest x.off = false →
        exec .loadLanding s = .next (s.dueAt (s.wcc + 1) .loadLanding (.op p id u))))
    ∧ (∀ f, op.word = .pfw f → exec .loadLanding s = .next (((List.range 24).filter fun q => bit (arg op.args 2) q).foldl
        (fun st q => st.bufSet ⟨p.dev, p.p / 24 * 24 + q⟩ .w (arg op.args 1) (op.bytes.getBytes 0 (arg op.args 0)))
        (s.putOp p id (op.completed u))))
    ∧ (∀ f, op.word = .pfa f → exec .loadLanding s = .next (((List.range 24).filter fun q => bit (arg op.args 2) q).foldl
        (fun st q => st.bufSet ⟨p.dev, p.p / 24 * 24 + q⟩ .a (arg op.args 1) (op.bytes.getBytes 0 (arg op.args 0)))
        (s.putOp p id (op.completed u))))
    ∧ (∀ off bs, s.abuf.wf → (s.pipe p).sbuf = [] → ((s.bufSet p .a off bs).abuf.getBytes (bufBase p + off) bs.length = bs))
    ∧ (s.loadLate p op = true → v.fault = none → ∃ t w, exec .loadDeadline s = .next t ∧ t.jobs.get? op.job = some w
        ∧ (w.fault.map fun f => (f.code, f.detail, f.stream)) = some (18, 0, op.eng.idx))

/-- R157, R158, R162, R167, R145: row i of a tile command accumulates into its 128 slots at once, or, when one would break the
headroom limit, none of them changes and the job has headroom; a VXE step writes its elements; a CPE unit writes to A, or its
write leaves for the home slice, in parts of the memory's choosing (log 87), each of which is performed there. -/
def Claim.Completions : Prop :=
  ∀ (s : State) (p : PipeRef) (id u : Nat) (op : Op) (v : Job), s.ev = .op p id u → (s.pipe p).ops.get? id = some op →
    (∀ e ks, op.fmt = some e → op.dead = false → (s.putOp p id (op.completed u)).rowAfter p op e u = some ks →
      ∃ t, exec .tileRowComplete s = .next t ∧ t.fresh = s.fresh + 128 ∧ t.pool = s.pool ∧ t.dram = s.dram ∧ t.abuf = s.abuf
        ∧ ∀ n k, ks[n]? = some k → t.slotAt p ((op.tileC + u * 4096) / 32 + n) = k)
    ∧ (∀ e, op.fmt = some e → op.dead = false → (s.putOp p id (op.completed u)).rowAfter p op e u = none →
      s.jobs.get? op.job = some v → v.state = .running → v.fault = none → ∃ t w, exec .tileRowComplete s = .next t
        ∧ t.slots = s.slots ∧ t.jobs.get? op.job = some w ∧ (w.fault.map fun f => f.code) = some 23)
    ∧ (let f := vecForm op.word op.args
       exec .vxeStepComplete s = .next ((s.putOp p id (op.completed u)).aSet p (operandOff f.dst.word + (op.vecBytes f u).1)
         (op.vecBytes f u).2))
    ∧ (s.jobs.get? op.job = some v → u < 2 ^ 32 →
      ((op.cpeUnit u).1 = true →
        exec .cpeWritePerformed s = .next ((s.putOp p id (op.completed u)).aSet p (op.cpeUnit u).2.1 (op.cpeUnit u).2.2))
      ∧ ((op.cpeUnit u).1 = false →
        let at_ := (op.cpeUnit u).2.1
        let bs := (op.cpeUnit u).2.2
        let c := (s.putOp p id (op.completed u)).cutWrite bs.length at_ bs
        let ws := c.1.zipIdx.map fun x => (1024 * u + x.2, toWord x.1.1, x.1.2)
        (c.1.map fun x => x.2).flatten = bs
        ∧ exec .cpeWritePerformed s = .next (ws.foldl
            (fun st w => st.within v.latW .cpeWritePerformed (.op p id (2 ^ 32 + w.1)))
            (c.2.putOp p id { op.completed u with writes := op.writes ++ ws }))))
    ∧ (∀ n va bs t, s.jobs.get? op.job = some v → u = 2 ^ 32 + n → (op.writes.find? fun w => w.1 == n) = some (n, va, bs) →
      (∀ m ∈ v.milestones, op.issue ≤ m.1) → s.storeMoves v.part.dev v.space 1 va.toNat bs.length = false →
      (s.putOp p id { op with writes := op.writes.filter fun w => w.1 != n }).engineStore v.part.dev v.space 2 va.toNat bs = .ok t →
      exec .cpeWritePerformed s = .next t)

/-- R157, R220: what an accumulate does to a slot: with a fixed anchor its value grows by the floors of the products in units of
2^(A − 64), the inexact flag is set when one is not exact, the count grows by the countable products, and a NaN or an infinity
only sets its flag. -/
def Claim.Accumulation : Prop :=
  ∀ (k : Slot) (id : Nat) (a : Int) (p : FVal), k.count ≠ 0 → k.anchor.toInt = a →
    (∀ neg m e, p = .fin neg m e → m ≠ 0 → floorLog m 1 e < a + 16 → k.count.toNat < 32768 → ∃ t,
      accumulate k false false false none [p] id = some t ∧ t.anchor.toInt = a ∧ t.count = k.count + 1 ∧ t.sum = .inr id
      ∧ t.wv = k.wv + BitVec.ofInt 96 (flooredUnits neg m e a).1 ∧ t.x = (k.x || !(flooredUnits neg m e a).2)
      ∧ t.n = k.n ∧ t.v = k.v)
    ∧ (∀ neg m e, p = .fin neg m e → m ≠ 0 → floorLog m 1 e < a + 16 → k.count = 32768 →
      accumulate k false false false none [p] id = none)
    ∧ (p = .nan → k.count.toNat ≤ 32768 → ∃ t, accumulate k false false false none [p] id = some t ∧ t.n = true ∧ t.wv = k.wv
      ∧ t.count = k.count ∧ t.sum = k.sum)
    ∧ (∀ neg, p = .inf neg → k.count.toNat ≤ 32768 → ∃ t, accumulate k false false false none [p] id = some t
      ∧ t.pi = (k.pi || !neg) ∧ t.mi = (k.mi || neg) ∧ t.n = k.n ∧ t.v = k.v ∧ t.x = k.x ∧ t.wv = k.wv ∧ t.count = k.count
      ∧ t.sum = k.sum)
    ∧ (∀ neg m e, p = .fin neg m e → m ≠ 0 → a + 16 ≤ floorLog m 1 e → k.count.toNat ≤ 32768 → ∃ t,
      accumulate k false false false none [p] id = some t ∧ t.v = true ∧ t.wv = k.wv ∧ t.count = k.count ∧ t.sum = k.sum)

/-- R140, R141, R145, R157, R158, R162, R167: landings, rows, steps and writes. -/
def Obligations.TimedCompletions : Prop := Claim.Landings ∧ Claim.Completions ∧ Claim.Accumulation

/-- R35, R29, R119, R330: an illegal word and a stream that runs off its code are faults; of two faults of one cycle the one of the
lowest pipe, then of the first engine, is recorded, once; and the fault word of R331 holds the fields. -/
def Obligations.StreamFaults : Prop :=
  ∀ (s : State) (j : Nat) (v : Job), s.OnJob j v → v.state = .running →
    (v.fault = none → ∃ t w, exec .illegalWord s = .next t ∧ t.st.dec = .idle ∧ t.jobs.get? j = some w
      ∧ w.fault = some { code := 1, detail := 0, pipe := v.rel s.sf.pipe.p, stream := s.sf.eng.idx, pcc := (s.part v.part).pcc })
    ∧ (v.fault = none → ∃ t w, exec .runOff s = .next t ∧ t.st.dec = .idle ∧ t.jobs.get? j = some w
      ∧ w.fault = some { code := 5, detail := 0, pipe := v.rel s.sf.pipe.p, stream := s.sf.eng.idx, pcc := (s.part v.part).pcc })
    ∧ (∀ f : StreamFault, v.fault = some f → f.stream < 8 →
      let mine : StreamFault := { code := 5, detail := 0, pipe := v.rel s.sf.pipe.p, stream := s.sf.eng.idx, pcc := (s.part v.part).pcc }
      let first : Prop := mine.pipe < f.pipe ∨ (mine.pipe = f.pipe ∧ mine.stream < f.stream)
      ∃ t w, exec .runOff s = .next t ∧ t.jobs.get? j = some w ∧ (first → w.fault = some mine) ∧ (¬first → w.fault = some f))
    ∧ (∀ f : StreamFault, f.code < 128 → f.pipe < 256 → f.stream < 8 → f.detail < 32 →
      f.word < 2 ^ 64 ∧ f.word / 2 ^ 63 = 1 ∧ f.word / 2 ^ 56 % 128 = f.code ∧ f.word / 2 ^ 48 % 256 = f.pipe
      ∧ f.word / 2 ^ 45 % 8 = f.stream ∧ f.word / 2 ^ 40 % 32 = f.detail ∧ f.word % 2 ^ 40 = f.pcc % 2 ^ 40)

/-! ## Windows, posts, holds and redirects (R3, R76, R103, R124, R176 to R180, R187 to R192, R270) -/

/-- R103, R176 to R178: POST waits for its slot's answer, which judges the value: within the bound, once, before the close by the
PCC at which it reached the slot; the port takes one post of a slot a cycle; an accepted value stands in the window, and fixes the
value of a stall slot after the close; the answer lets the thread go on, or traps it; an address in no pipe's window is
oasis-refused (log 107). -/
def Claim.Posts : Prop :=
  ∀ (s : State) (g : Guard) (a b : Reg) (t : CtxRef) (r : PostReq) (j : Nat) (v : Job) (w : Window) (d : SlotDecl),
    let va := s.reg a
    let u : State := { s with tf := t }
    let answer (x : PostVerdict) (s : State) : Out := .next (s.within (pipeBound r.src.core r.pipe) .postAck (.verdict r.src x))
    let value := r.value.toNat % 2 ^ 32
    (s.guardHolds g = true → s.me.stores = [] → (s.ctx (s.homeOf s.tf)).updates = [] →
      (∀ p off, va.toNat % 8 = 0 → s.classify s.tf va = .window p none off → exec (.post g a b) s
        = .next ((s.park s.tf (.pipe none)).within (pipeBound s.tf.core p) .postArrival
            (.post ⟨s.tf, s.me.space, p, off / 128, off % 128 / 8, s.reg b, none⟩))
        ∧ (s.me.cur = some (.post g a b) → Completes (.post g a b) s .postAck (.verdict s.tf .ack) fun x => x.retire 4))
      ∧ (va.toNat % 8 ≠ 0 → Traps (.post g a b) s 2 0 va)
      ∧ (va.toNat % 8 = 0 → (∀ p off, s.classify s.tf va ≠ .window p none off) → Traps (.post g a b) s 14 0 va))
    ∧ (s.postJobs r.pipe = [(j, v)] → v.space = r.space → s.postTarget r = (s.slotOf v r).map fun y => ((j, v), y))
    ∧ (s.ev = .post r → s.postTarget r = none → exec .postArrival s = answer .refused s)
    ∧ (∀ reached, s.ev = .post r → s.postTarget r = some ((j, v), (w, d)) → reached = r.reached.getD (s.part v.part).pcc →
      (v.portTook r s.wcc = true →
        exec .postArrival s = .next (s.dueAt s.wcc .postArrival (.post { r with reached := some reached })))
      ∧ (v.portTook r s.wcc = false →
        let s1 := s.modJob j fun v => { v with postAt := v.postAt.put (16 * r.record + r.slot) s.wcc }
        let late : Prop := if v.state = .running then w.closeAt ≤ reached else w.closed = true
        (d.bound < r.value.toNat → exec .postArrival s = answer .bound s1)
        ∧ (r.value.toNat ≤ d.bound → (w.posted[r.slot]?).join.isSome = true → exec .postArrival s = answer .repeated s1)
        ∧ (r.value.toNat ≤ d.bound → (w.posted[r.slot]?).join = none →
          (¬late → exec .postArrival s = answer .ack (s1.acceptPost j r w))
          ∧ (late → d.stall = true → w.closed = true → w.value r.slot = none →
            exec .postArrival s = answer .ack (s1.acceptPost j r w))
          ∧ (late → (d.stall = false ∨ w.closed = false ∨ w.value r.slot ≠ none) → exec .postArrival s = answer .closed s1))))
    ∧ (s.jobs.get? j = some v → r.slot < w.posted.length → ∃ v' w', (s.acceptPost j r w).jobs.get? j = some v'
      ∧ v'.windows.get? r.record = some w' ∧ w'.posted[r.slot]? = some (some value)
      ∧ (w.closed = false → w'.fixed = w.fixed) ∧ (w.closed = true → w'.fixed = w.fixed.set r.slot (some value)))
    ∧ (∀ k h, w.closed = true → (∀ x ∈ w.fixed.set r.slot (some value), x ≠ none) → h ∈ (s.part k).holds →
      h.cause = .close j r.record → h.release = none →
      { h with release := some s.wcc } ∈ ((s.acceptPost j r w).part k).holds)
    ∧ (∀ l, (s.ctx t).mode = .waiting (.pipe l) → (s.ctx t).cur = some (.post g a b) →
      (s.ev = .verdict t .ack → exec .postAck s = .next (u.retire 4))
      ∧ (s.ev = .verdict t .refused → exec .postAck s = .next (u.trap 14 0 (u.reg a)))
      ∧ (s.ev = .verdict t .bound → exec .postAck s = .next (u.trap 15 0 (u.reg a)))
      ∧ (s.ev = .verdict t .repeated → exec .postAck s = .next (u.trap 16 0 (u.reg a)))
      ∧ (s.ev = .verdict t .closed → exec .postAck s = .next (u.trap 17 0 (u.reg a))))

/-- R3, R178, R187: at the close each slot's value is fixed: the posted value, or the default; a stall slot without a post declares
a hold instead. -/
def Claim.Closes : Prop :=
  ∀ (s : State) (j i : Nat) (v : Job) (w : Window) (o : OasisRecord), s.ev = .jobRecord j i → s.jobs.get? j = some v →
    v.windows.get? i = some w → v.oases[i]? = some o → w.closed = false → w.posted.length = o.slots.length → o.segtab = none →
    ∃ t v' w', exec .oasisClose s = .next t ∧ t.jobs.get? j = some v' ∧ v'.windows.get? i = some w' ∧ w'.closed = true ∧ w'.sel = v.selector i
      ∧ (∀ (n y : Nat), w.posted[n]? = some (some y) → w'.fixed[n]? = some (some y))
      ∧ (∀ (n : Nat) (d : SlotDecl), o.slots[n]? = some d → w.posted[n]? = some none →
          w'.fixed[n]? = some (if d.stall then none else some d.default))
      ∧ ((∀ n : Nat, n < w.posted.length → w.posted[n]? ≠ some none) → t.parts = s.parts)
      ∧ ((∃ (n : Nat) (d : SlotDecl), o.slots[n]? = some d ∧ w.posted[n]? = some none ∧ d.stall = true) →
          (⟨j, w.closeAt, w.closeAt + s.horizon v.part, none, .close j i⟩ : Hold) ∈ (t.part v.part).holds)

/-- R124, R188 to R190, R192: a partition holds from the cycle that a declaration names until its release and the horizon; a stream
at entry(0) resumes at entry(v) with its bias and LAST shifted; MAXGAP cycles without a PPT are a fault, on a pipe whose SEQ the
job starts (log 95). -/
def Claim.HoldsAndRedirects : Prop :=
  ∀ (s : State) (k : PartRef) (x : StreamRef) (i n j : Nat) (v : Job) (w : Window) (o : OasisRecord) (g0 gv : Segment),
    (s.ev = .part k → s.holdsNow k = true → exec .holdOnset s = .next (s.modPart k fun p => { p with held := true }))
    ∧ (s.ev = .part k → s.holdsNow k = false → exec .haboobEnd s = .next (s.modPart k fun p => { p with held := false }))
    ∧ ((s.part k).group = none → (s.part k).holds = [] → s.holdsNow k = false)
    ∧ (∀ h : Hold, (s.part k).group = none → (s.part k).holds = [h] → s.jobs.get? h.job = none →
      (s.holdsNow k = true ↔ h.f = (s.part k).pcc ∧ ∀ r, h.release = some r → s.wcc < r + 24))
    ∧ ((s.part k).group = none → (s.holdsNow k = true ↔ ∃ h ∈ (s.part k).holds, h.f = (s.part k).pcc
        ∧ (∀ u, s.jobs.get? h.job = some u → u.state ≠ .suspended) ∧ ∀ r, h.release = some r → s.wcc < r + 24))
    ∧ (s.ev = .stream x → (s.stream x).dec = .entry i n → (s.pipe x.pipe).job = some j → s.jobs.get? j = some v →
      v.arming i n = some w → v.oases[i]? = some o → s.redirectDue v x.pipe w = true → (v.segments o)[0]? = some g0 →
      (v.segments o)[(w.value w.sel).getD 0]? = some gv →
      exec .segmentRedirect s = .next (s.modStream x fun t =>
        { t with pos := gv.entry x.eng, taken := gv.entry x.eng == t.pos, bias := t.bias + ((gv.slen : Int) - g0.slen), last := t.last - ((gv.slen : Int) - g0.slen),
                 dec := .decoding, bound := some (w.closeAt + s.horizon v.part), owed := t.owed.erase (i, n) }))
    ∧ (s.ev = .pipe x.pipe → (s.pipe x.pipe).job = some j → s.jobs.get? j = some v → s.gapExceeded v x.pipe = true →
      exec .maxgapExpiry s = .next (s.raiseAt j v ⟨x.pipe, .seq⟩ 4 4))

/-- R76, R270: a mapped access outside its window is refused; a store inside goes into the store buffer, whose lines drain into A;
a load waits for its bank and is answered with the bytes there; an accepted store or an answered load of a context that waits for
it retires (log 45). -/
def Claim.MappedAccesses : Prop :=
  ∀ (s : State) (r : OasisReq) (p : PipeRef) (l : BufferLine),
    (∀ m, s.ev = .access r → s.admits r = none → (s.pipe r.pipe).waiters = [] → (s.ctx r.src).mode = .waiting (.pipe m) →
      (r.store = none → exec .oasisAccessArrival s = .next (({ s with tf := r.src } : State).trap 14 0 (windowAddr r)))
      ∧ (∀ x, r.store = some x → exec .oasisAccessArrival s = .next
          (({ (s.modPipe r.pipe fun p => { p with waiters := p.waiters.filter fun q => q != r }) with tf := r.src } : State).trap 14 0
            (windowAddr r))))
    ∧ (∀ j v, s.ev = .access r → s.admits r = some (j, v) → (s.pipe r.pipe).waiters = [] → r.store = none →
      ∃ t, exec .oasisAccessArrival s = .next t ∧ (t.pipe r.pipe).waiters = [{ r with job := some j }])
    ∧ (s.ev = .access r → (s.pipe r.pipe).waiters.contains r = true → r.store = none → s.canServe r = true →
      exec .oasisAccessArrival s = .next (s.serveLoad r))
    ∧ (∀ j v x, s.ev = .access r → s.admits r = some (j, v) → r.store = some x → (∀ m, (s.ctx r.src).mode ≠ .waiting (.pipe m)) →
      (s.claimBank j v none ⟨r.pipe, .a, bankOf .a r.off⟩).canBuffer r = true → ∃ t, exec .oasisAccessArrival s = .next t
        ∧ (t.pipe r.pipe).sbuf = bufferBytes (s.pipe r.pipe).sbuf r.off (leBytes r.size x.toNat) ∧ t.abuf = s.abuf)
    ∧ (∀ j v x, s.ev = .access r → s.admits r = some (j, v) → r.store = some x →
      let s1 := s.claimBank j v none ⟨r.pipe, .a, bankOf .a r.off⟩
      (∀ m f, (s.ctx r.src).mode = .waiting (.pipe m) → (s.ctx r.src).cur.bind memForm = some f → s1.canBuffer r = true →
        let s2 := (s1.modPipe r.pipe fun p => { p with waiters := p.waiters.filter fun q => q != r }).modPipe r.pipe fun p =>
          { p with sbuf := bufferBytes p.sbuf r.off (leBytes r.size x.toNat) }
        exec .oasisAccessArrival s = .next (({ s2 with tf := r.src } : State).endStore f (windowAddr r)))
      ∧ (s1.canBuffer r = false → (s.pipe r.pipe).waiters = [] → ∃ t, exec .oasisAccessArrival s = .next t
        ∧ (t.pipe r.pipe).waiters = [r] ∧ (t.pipe r.pipe).sbuf = (s.pipe r.pipe).sbuf))
    ∧ (∀ x m f, s.ev = .access r → r.store = some x → (s.ctx r.src).mode = .waiting (.pipe m) →
      (s.ctx r.src).cur.bind memForm = some f → exec .threadLoadReply s
        = .next (({ s with tf := r.src } : State).endLoad f (windowAddr r) m (leBytes (memSize f.z) x.toNat)))
    ∧ (s.ev = .pipe p → s.drainable p = some l → ∃ t, exec .oasisStoreBufferDrain s = .next t
        ∧ (t.pipe p).sbuf = ((s.pipe p).sbuf.filter fun m => m.line != l.line)
        ∧ ∀ a, (∀ x ∈ l.bytes, a ≠ bufBase p + 64 * l.line + x.1) → t.abuf.get a = s.abuf.get a)

/-- R3, R76, R103, R124, R176 to R180, R187 to R192, R270: windows, posts, holds, redirects and mapped ranges. -/
def Obligations.WindowsAndPosts : Prop := Claim.Posts ∧ Claim.Closes ∧ Claim.HoldsAndRedirects ∧ Claim.MappedAccesses

/-! ## The partition front, banks and partitions (R34, R104, R125, R181, R183, R185, R294, R331 to R337) -/

/-- R34, R104, R196, R332: JOB sends its request, which the front answers: an image that fails a check of Table 15 traps with the
check's number, before any displacement (log 46), a refused one with its reason; a request that may displace its victims waits for
them, a frozen one among them (log 36); one stands back while a write of SYS.SLOTMAP that lowers a share waits; an accepted job starts
on its pipes. -/
def Claim.JobRequests : Prop :=
  ∀ (s : State) (g : Guard) (d : Reg) (k : BitVec 3) (r : JobReq),
    let request (rel : Bool) : JobReq := ⟨s.tf, s.myPart k.toNat, rel, s.reg d, s.jobMask d, s.reg (d + 4)⟩
    let sent (rel : Bool) : Out :=
      .next ((s.park s.tf (.reply (s.reg d) 0)).within (s.answerBound (request rel)) .jobAccept (.request (request rel)))
    let u : State := { s with tf := r.src }
    (s.guardHolds g = true → d.toNat ≤ 11 → s.me.stores = [] → (s.ctx (s.homeOf s.tf)).updates = [] →
      exec (.job g d k) s = sent false ∧ exec (.jobRel g d k) s = sent true)
    ∧ (11 < d.toNat → Traps (.job g d k) s 1 0 0 ∧ Traps (.jobRel g d k) s 1 0 0)
    ∧ (s.ev = .request r → s.loweringWaits r.part.dev = true →
      exec .jobAccept s = .next (u.dueAt (s.wcc + 1) .jobAccept (.request r)))
    ∧ (∀ dev, s.loweringWaits dev = true ↔ ∃ c, (s.dev dev).slotWait = some c ∧ c.pending = true)
    ∧ (s.ev = .request r → s.loweringWaits r.part.dev = false → s.victims r = [] →
      (∀ bs, u.imageCheck r = .ok bs → u.refusal r (u.startOf r) = none →
        exec .jobAccept s = .next (((u.dropRequest r).acceptJob r bs (u.startOf r)).retire 4))
      ∧ (∀ bs n, u.imageCheck r = .ok bs → u.refusal r (u.startOf r) = some n →
        exec .jobAccept s = .next ((u.dropRequest r).trap 23 n r.image)))
    ∧ (∀ rel bs, s.guardHolds g = true → d.toNat ≤ 11 → s.me.stores = [] → (s.ctx (s.homeOf s.tf)).updates = [] →
      let q := request rel
      let t : State := { (s.park s.tf (.reply (s.reg d) 0)).within (s.answerBound q) .jobAccept (.request q) with ev := .request q }
      s.loweringWaits q.part.dev = false → t.imageCheck q = .ok bs → t.victims q = [] → t.refusal q (t.startOf q) = none →
      Completes (if rel then .jobRel g d k else .job g d k) s .jobAccept (.request q) fun x =>
        ((x.dropRequest q).acceptJob q bs (x.startOf q)).retire 4)
    ∧ (∀ bs, s.ev = .request r → s.loweringWaits r.part.dev = false → u.imageCheck r = .ok bs → s.victims r ≠ [] →
      ((requestPipes r).any fun x => !(s.part r.part).clusters.contains (x.p / 24)) = false → s.pipeTaken r = false →
      (s.victims r).all (u.mayDisplace r) = true → ∃ t, exec .jobAccept s = .next t ∧ t.requested r = true
        ∧ ∀ j ∈ s.victims r, ∀ v, s.jobs.get? j = some v → t.jobs.get? j = some { v with wanted := true })
    ∧ (∀ n, s.ev = .request r → s.loweringWaits r.part.dev = false → u.imageCheck r = .error n →
      exec .jobAccept s = .next ((u.dropRequest r).trap 22 n r.image))
    ∧ (∀ (bs : List Byte) (start : Nat), ∃ v, (s.acceptJob r bs start).jobs.get? s.serial = some v ∧ v.state = .running
      ∧ v.part = r.part ∧ v.start = start ∧ v.pipes = setBits 192 r.mask ∧ v.space = (s.ctx r.src).space ∧ v.windows = []
      ∧ v.fault = none ∧ ∀ p ∈ requestPipes r, ((s.acceptJob r bs start).pipe p).job = some s.serial
        ∧ ((s.acceptJob r bs start).pipe p).fmtq = [] ∧ ((s.acceptJob r bs start).pipe p).scaleW = 0x3F800000)
    ∧ (∀ (p : JobReq), p.image.toNat % 64 ≠ 0 → s.imageCheck p = .error 1)
    ∧ (∀ start, ((requestPipes r).any fun x => !(s.part r.part).clusters.contains (x.p / 24)) = false →
      (start < (s.part r.part).pcc + 64 → s.refusal r start = some 2)
      ∧ ((s.part r.part).pcc + 64 ≤ start → s.victims r ≠ [] ∨ s.pipeTaken r = true → s.refusal r start = some 3))

/-- R114: at S − 64 every started stream of the job that has not begun begins to decode. -/
def Claim.DecodeStarts : Prop :=
  ∀ (s : State) (j : Nat) (v : Job), s.ev = .job j → s.jobs.get? j = some v → ∃ t, exec .decodeStart s = .next t
    ∧ (∀ p ∈ v.refs, ∀ e : Engine, (s.stream ⟨p, e⟩).started = true → (s.stream ⟨p, e⟩).dec = .idle →
        (t.stream ⟨p, e⟩).dec = .decoding)
    ∧ t.pipes = s.pipes ∧ t.jobs = s.jobs ∧ t.cores = s.cores

/-- R125, R185, R331: a job whose streams have ended and whose writes are performed stores its counts and then its completion and is
gone; a frozen one stores its fault word. -/
def Claim.JobsEnd : Prop :=
  ∀ (s : State) (j : Nat) (v : Job), s.ev = .job j → s.jobs.get? j = some v →
    let s1 := (s.freeBanks j v.space).leavePipes j v
    (∀ s2, s.jobFinished j v = true → s.recordMoves v = false →
      s1.storeRecord v [(16, v.conflicts), (24, v.budgetHolds), (0, 0)] = some s2 →
      exec .jobComplete s = .next { s2 with jobs := s2.jobs.drop j } ∧ (s2.jobs.drop j).get? j = none)
    ∧ (∀ f, v.fault = some f → v.state = .frozen → v.recorded = false → s.jobBusy j = false → v.milestones = [] → s.recordMoves v = false →
      let t := s.modJob j fun v => { v with recorded := true }
      exec .jobFaultRecord s
        = .next (((t.storeRecord v [(8, f.word), (16, v.conflicts), (24, v.budgetHolds)]).getD t).jobFaultFreeze v))
    ∧ (s.jobFinished j v = true → v.fault = none ∧ v.milestones = [] ∧ s.jobBusy j = false)

/-- R332 to R334, R337: a victim that stops leaves its pipes with its small state saved and is suspended; it resumes with its stamps
shifted by D; a request whose victims do not stop in time is refused with reason 3, and its victims need stop no longer unless
another request waits for them. A frozen victim is displaced at once (log 36). -/
def Claim.Displacement : Prop :=
  ∀ (s : State) (j : Nat) (v : Job) (r : JobReq),
    (s.ev = .job j → s.jobs.get? j = some v → v.state = .running → v.wanted = true → v.fault = none → ∃ t w, exec .victimStop s = .next t
      ∧ t.jobs.get? j = some w ∧ w.state = .suspended ∧ w.wanted = false ∧ w.savedAt = none ∧ w.images = v.images
      ∧ ∀ p ∈ v.refs, (s.pipe p).job = some j → (t.pipe p).job = none ∧ (t.pipe p).suspended = some j
        ∧ (t.pipe p).saved = some (s.smallState p))
    ∧ (s.ev = .job j → s.jobs.get? j = some v → v.state = .running → v.fault ≠ none → exec .victimStop s = .next s)
    ∧ (∀ x, s.ev = .jobWord j x → s.jobs.get? j = some v → v.state = .suspended → v.savedAt = none → ∃ t, exec .victimStop s = .next t
      ∧ t.jobs.get? j = some { v with savedAt := some s.wcc })
    ∧ (s.ev = .job j → s.jobs.get? j = some v → s.mayResume v = true →
      let d : Int := ((s.part v.part).pcc : Int) + 64 - v.stopAt
      ∃ t w, exec .jobResume s = .next t ∧ t.jobs.get? j = some w ∧ w.state = .running ∧ w.start = v.start ∧ w.savedAt = none
        ∧ w.windows = v.windows.map (fun e =>
            (e.1, { e.2 with openAt := (e.2.openAt + d).toNat, closeAt := (e.2.closeAt + d).toNat }))
        ∧ ∀ p ∈ v.refs, ∀ x, (s.pipe p).saved = some x → (t.pipe p).job = some j ∧ (t.pipe p).fmtq = x.fmtq
          ∧ (t.pipe p).ctabs = x.ctabs ∧ (t.pipe p).latest = x.latest ∧ (t.pipe p).saved = none
          ∧ (x.streams.length = 5 → ∀ e : Engine, (x.streams[e.idx]?).map (fun y => y.shift d) = some (t.stream ⟨p, e⟩)))
    ∧ (∀ (y : Stream) (d : Int), (y.shift d).pos = y.pos ∧ (y.shift d).bias = y.bias + d
      ∧ (y.shift d).owed = y.owed.map (fun e => (e.1, (e.2 + d).toNat))
      ∧ (∀ i o, y.dec = .entry i o → (y.shift d).dec = .entry i (o + d).toNat)
      ∧ (∀ w o, y.dec = .launch w o → (y.shift d).dec = .launch w (o + d).toNat))
    ∧ (s.ev = .request r → s.requested r = true → exec .displacementTimeout s = .next
        (({ s.dropRequest r with tf := r.src } : State).trap 23 3 r.image))
    ∧ (s.jobs.get? j = some v → j ∈ s.awaited r → (s.dropRequest r).jobs.get? j = some { v with
        wanted := v.wanted && (s.part r.part).requests.any fun e => e.2.1 != r && e.2.2.contains j })
    ∧ (∀ w, s.jobs.get? j = some w → w.state = .frozen → s.mayDisplace r j = true)
    ∧ (∀ w, s.jobs.get? j = some w → w.state = .running → w.aligned = true → s.mayDisplace r j = false)

/-- R335 to R337: a bank of one's own costs nothing; one that was, or is to be, written to the job's image is filled from it; another
job's is written out; one last owned by the same space is free at once, or usable behind an earlier claim of it; another space's is
cleared. A claim that takes time stands among the pipe's claims, in the order of their cycles and then of the banks, and declares a
hold; the pipe serves the first one, when its time has come and nothing of another job touches the bank, and its end leaves the bank
zero, written out, or filled. -/
def Claim.BankClaims : Prop :=
  ∀ (s : State) (j : Nat) (v : Job) (b : BankRef) (c : BankClaim) (l : List BankClaim) (p : PipeRef),
    let o := s.owner b
    let imaged : Prop := v.images.contains (b.pipe.code, bankCode b.buf b.n) = true
      ∨ ∃ x ∈ s.claimsOf b, x.kind = .writeOut ∧ x.victim = some j
    (o.job = some j → s.claimKind j v b = .own ∧ ∀ d, s.claimBank j v d b = s)
    ∧ (o.job ≠ some j → imaged → s.claimKind j v b = .fill)
    ∧ (o.job ≠ some j → ¬imaged → o.job ≠ none → s.claimKind j v b = .writeOut)
    ∧ (o.job = none → ¬imaged → o.last = some v.space → s.claimsOf b = [] → s.claimKind j v b = .free
      ∧ ∀ d, (s.claimBank j v d b).owner b = { o with job := some j } ∧ ((s.claimBank j v d b).pipe b.pipe).claims
        = (s.pipe b.pipe).claims)
    ∧ (o.job = none → ¬imaged → o.last = some v.space → s.claimsOf b ≠ [] → s.claimKind j v b = .behind)
    ∧ (o.job = none → ¬imaged → o.last ≠ some v.space → s.claimKind j v b = .clear)
    ∧ (∀ d kind, s.claimKind j v b = kind → kind ≠ .own → kind ≠ .free →
      ∃ n, n ≤ kind.latency v ∧ (s.claimBank j v d b).owner b = { o with job := some j }
        ∧ ((s.claimBank j v d b).pipe b.pipe).claims = insertClaim ⟨b, kind, j, o.job, s.wcc, n⟩ (s.pipe b.pipe).claims
        ∧ (∀ n, d = some n → kind ≠ .behind →
          (⟨j, n, n + s.horizon v.part, none, .bank b⟩ : Hold) ∈ ((s.claimBank j v d b).part v.part).holds))
    ∧ (c.work = match c.kind with
        | .clear => (bankBytes c.bank.buf + 511) / 512
        | .writeOut | .fill => (bankBytes c.bank.buf + 255) / 256
        | .own | .free | .behind => 0)
    ∧ (∀ x : BankClaim,
      let first : Prop := c.cycle < x.cycle ∨ (c.cycle = x.cycle ∧ bankCode c.bank.buf c.bank.n < bankCode x.bank.buf x.bank.n)
      insertClaim c [] = [c] ∧ (first → insertClaim c (x :: l) = c :: x :: l)
      ∧ (¬first → insertClaim c (x :: l) = x :: insertClaim c l))
    ∧ (∀ x, s.claimDue p = some x ↔ ∃ rest, (s.pipe p).claims = x :: rest
      ∧ Nat.max (x.cycle + x.lat) (s.pipe p).claimEnd + x.work ≤ s.wcc ∧ s.bankTouched x.bank = false)
    ∧ (s.ev = .bank b → s.claimDue b.pipe = some c → c.bank = b →
      (c.kind = .clear → exec .bankClearEnd s = .next ((s.bankZero b).endClaim c))
      ∧ (c.kind = .writeOut → exec .bankWriteOutEnd s = .next
          (((match c.victim with | some k => s.writeImage k b | none => s).bankZero b).endClaim c))
      ∧ (c.kind = .fill → exec .bankFillEnd s = .next
          ((if (s.jobs.get? c.job).isSome then s.fillImage c.job b else s.bankZero b).endClaim c)))
    ∧ (s.ev = .bank b → s.claimDue b.pipe = none →
      exec .bankClearEnd s = .next s ∧ exec .bankWriteOutEnd s = .next s ∧ exec .bankFillEnd s = .next s)
    ∧ (((s.endClaim c).pipe c.bank.pipe).claims = (s.pipe c.bank.pipe).claims.erase c
      ∧ ((s.endClaim c).pipe c.bank.pipe).claimEnd = s.wcc
      ∧ ∀ k h, h ∈ (s.part k).holds → h.cause = .bank c.bank → h.job = c.job → h.release = none →
        { h with release := some s.wcc } ∈ ((s.endClaim c).part k).holds)
    ∧ (b.buf = .w → ∀ a, b.n * 2 ^ 17 ≤ a → a < (b.n + 1) * 2 ^ 17 → s.wbuf.wf →
      (s.bankZero b).wbuf.get (bufBase b.pipe + a) = 0)

/-- R34, R104, R114, R125, R185, R331 to R337: the partition front and the banks. -/
def Obligations.JobsAtTheFront : Prop := Claim.JobRequests ∧ Claim.DecodeStarts ∧ Claim.JobsEnd ∧ Claim.Displacement ∧ Claim.BankClaims

/-- R66, R181, R183, R294: whole clusters that lie in no other partition form one, with PCC 0; a dissolved one is as never formed, and
its jobs end with no record (log 48); aligned members take the common count, and leave it together; the holds that a lost member
declared are released. -/
def Obligations.Partitions : Prop :=
  ∀ (s : State) (k : PartRef) (cs : List Nat) (ms : List PartRef) (p0 g : Nat) (lost : List PartRef),
    let taken := (List.range 8).any fun i => (s.part ⟨k.dev, i⟩).formed && (s.part ⟨k.dev, i⟩).clusters.any fun c => cs.contains c
    (s.ev = .form k cs → (s.part k).formed = false → cs ≠ [] → k.k < 8 → (∀ c ∈ cs, c < 8) →
      (taken = false → ∃ t, exec .partitionForm s = .next t
        ∧ t.part k = { Partition.reset with formed := true, clusters := cs } ∧ (t.part k).pcc = 0)
      ∧ (taken = true → exec .partitionForm s = .next s))
    ∧ (s.ev = .part k → (s.part k).formed = true → (s.part k).group = none → exec .partitionDissolve s
        = .next ((((s.jobsOf k).foldl (fun st j => st.dissolveJob j) s).modPart k fun _ => Partition.reset).trapWaiters k))
    ∧ (s.ev = .align ms p0 → ms ≠ [] → p0 < 2 ^ 64 → (ms.map fun m => m.dev).Nodup →
      (∀ m ∈ ms, (s.part m).formed = true ∧ (s.part m).group = none ∧ (s.part m).pcc ≤ p0 ∧ s.jobsOf m = []) →
      ∃ t, exec .alignPartitions s = .next t ∧ t.groups.get? s.serial = some ms
        ∧ ∀ m ∈ ms, (t.part m).pcc = p0 ∧ (t.part m).group = some s.serial)
    ∧ (s.ev = .align ms p0 → (∃ m ∈ ms, p0 < (s.part m).pcc) → exec .alignPartitions s = .next s)
    ∧ (s.ev = .group g lost →
      (lost = [] → ∃ t, exec .partitionDealign s = .next t ∧ t.groups.get? g = none
        ∧ ∀ m ∈ (s.groups.get? g).getD [], (t.part m).group = none)
      ∧ (lost ≠ [] → exec .partitionDealign s = .next (s.loseMembers g lost)))
    ∧ (∀ m h, m ∈ (s.groups.get? g).getD [] → h ∈ (s.part m).holds → h.release = none →
      (∃ l, h.cause = .remote l ∧ l ∈ lost) ∨ ((∀ l, h.cause ≠ .remote l) ∧ m ∈ lost) →
      { h with release := some s.wcc } ∈ ((s.loseMembers g lost).part m).holds)

/-! ## Queues, packets, graphs and thread jobs (R231 to R235, R241, R247 to R254, R275, R338 to R351) -/

/-- R275, R313, R343: a fetched head with a new mark and a good checksum stands to be taken; a bad checksum is read again up to four
times and then freezes the queue; a fetch waits while its lines move. -/
def Claim.Fetching : Prop :=
  ∀ (s : State) (d q n : Nat) (bs : List Byte),
    (s.ev = .queue d q → (s.queue d q).fetching = true → s.fetchMoves d q = true →
      exec .packetFetch s = .next (s.dueAt (s.wcc + 1) .packetFetch (.queue d q))
      ∧ exec .packetRefetch s = .next (s.dueAt (s.wcc + 1) .packetRefetch (.queue d q)))
    ∧ (s.ev = .queue d q → (s.queue d q).fetching = true → s.fetchMoves d q = false →
      (((s.loadQueue d q).queue d q).state = 0 → ((s.loadQueue d q).dev d).served = true →
        exec .packetFetch s = .next ((s.loadQueue d q).readHead d q 1))
      ∧ ((s.queue d q).state = 0 → (s.dev d).served = true →
        exec .packetRefetch s = .next (s.readHead d q ((s.queue d q).refetch + 1))))
    ∧ (s.newHead d q = some bs → longHead bs = false →
      (packetCrcOk bs = true →
        ((s.readHead d q n).queue d q).packets = (s.queue d q).packets ++
          [{ seq := (s.queue d q).next, kind := wbits (wordAt (wordsOf bs) 0) 56 8, int := wbits (wordAt (wordsOf bs) 0) 54 1 == 1,
             words := wordsOf bs, taken := false, started := false, copy := .none, done := none }])
      ∧ (packetCrcOk bs = false → n < 5 → ((s.readHead d q n).queue d q).fetching = true
        ∧ (s.wcc + 256, .packetRefetch, .queue d q) ∈ (s.readHead d q n).agenda)
      ∧ (packetCrcOk bs = false → 5 ≤ n → (s.queue d q).state = 0 →
        ((s.readHead d q n).queue d q).state = 1 ∧ ((s.readHead d q n).queue d q).cause = 2))

/-- R342 to R349: a packet is taken at its turn, with its sequence number and slots, a LAUNCH once a core is eligible for its root; a
malformed one freezes its queue instead, when it could be taken; each kind starts its work; a graph is read once, at the take (log 52); a
LAUNCH or GRAPH that fails its checks freezes its queue; FENCE completes when everything before it has. -/
def Claim.Packets : Prop :=
  ∀ (s : State) (d q : Nat) (p : Packet), s.ev = .queue d q → s.takeable d q = some p →
    s.mayBegin d p (s.queue d q).packets.dropLast = true
    ∧ (packetOk p.words = false → ((s.refuseHead d q).queue d q).state = 1 ∧ ((s.refuseHead d q).queue d q).cause = 1
      ∧ ∀ i : Instr, i = .packetLaunch ∨ i = .packetGraph ∨ i = .packetCopy ∨ i = .packetWait ∨ i = .packetSignal ∨ i = .packetFence →
        exec i s = .next (s.refuseHead d q))
    ∧ (packetOk p.words = true →
    let t := s.take d q p
    let ws := launchWords p.words
    (p.kind = 1 → t.launchOk d ws = true → exec .packetLaunch s = .next (t.newTJob d q p.seq none ws))
    ∧ (p.kind = 1 → t.launchOk d ws = false → exec .packetLaunch s = .next (t.freezeQueue d q 3 (.pkt d q p.seq)))
    ∧ (∀ head nodes, p.kind = 2 → t.readGraph d (t.queue d q).space (wordAt p.words 2) = some (head, nodes) →
      let v : Graph :=
        { dev := d, queue := q, seq := p.seq, space := (t.queue d q).space, nodes := nodes, stat := wordAt head 2, status := [],
          ended := [], iterations := [], going := [], copies := [], unstored := [], failed := false, cause := 0 }
      let u : State := { t with serial := t.serial + 1, graphs := t.graphs.put t.serial v }
      exec .packetGraph s = .next ((((List.range nodes.length).foldl (fun st n => st.setStatus t.serial n 0) u).advanceGraph
        t.serial).beginFetch d q))
    ∧ (p.kind = 2 → t.readGraph d (t.queue d q).space (wordAt p.words 2) = none →
      exec .packetGraph s = .next (t.freezeQueue d q 4 (.pkt d q p.seq)))
    ∧ (p.kind = 3 → exec .packetCopy s = .next ((t.startCopy (.pkt d q p.seq) p.words).beginFetch d q))
    ∧ (p.kind = 4 → exec .packetWait s = .next (t.dueAt s.wcc .waitNodePoll (.pkt d q p.seq)))
    ∧ (p.kind = 5 → exec .packetSignal s = .next ((t.later .signalNodeDone (.pkt d q p.seq)).beginFetch d q))
    ∧ (p.kind = 6 → exec .packetFence s = .next (t.completePacket d q p.seq 0))
    ∧ (t.queue d q).next = (s.queue d q).next + 1
    ∧ (t.queue d q).consumed = (s.queue d q).consumed + (if wbits (wordAt p.words 0) 55 1 = 1 then 2 else 1)
    ∧ (p.kind = 5 ∨ p.kind = 6 → ∀ x ∈ (s.queue d q).packets.dropLast, x.done ≠ none)
    ∧ (p.kind = 1 → s.launchOk d ws = true →
      ∃ c ∈ s.jobCores d (wbits (wordAt ws 4) 0 22), s.rootCore s.serial c = true))

/-- R234, R235, R348: a root is placed on an eligible core, or waits; an interrupt goes out when it is due. -/
def Claim.PlacementAndInterrupts : Prop :=
  ∀ (s : State) (d q j t : Nat) (c : CoreRef) (v : TJob),
    (s.ev = .place j c → s.tjobs.get? j = some v → v.state = .placing →
      let cs := if s.placementWaits v then [] else (s.jobCores v.dev v.rect.toNat).filter fun c => s.rootCore j c
      let k := s.pick cs.length
      (cs = [] → exec .launchPlacement s = .next (s.dueAt (s.wcc + 1) .launchPlacement (.place j c)))
      ∧ (cs ≠ [] → exec .launchPlacement s = .next (k.2.startRoot j v ((cs[k.1]?).getD c))))
    ∧ (s.ev = .queue d q → (s.queue d q).intDue = some t → t ≤ s.wcc → ∃ u, exec .interruptSend s = .next u
      ∧ u.outbox = s.outbox ++ [.interrupt (64 * (s.dev d).config.group + q)] ∧ (u.queue d q).intDue = none
      ∧ (u.queue d q).intOwed = (s.queue d q).intOwed)

/-- R231 to R235, R275, R342 to R348: packets, their placement and their interrupts. -/
def Obligations.PacketsAndQueues : Prop := Claim.Fetching ∧ Claim.Packets ∧ Claim.PlacementAndInterrupts

/-- R249 to R254, R274, R313, R345: a settled node starts by its kind; a copy of a node or packet reads and writes its bytes piece by
piece, the pieces' sizes and order being open, and is done when it has none left or at the piece that fails (log 55); waits and signals
end, a signal after its graph's earlier stores; a failed one freezes the queue with node-fault. -/
def Obligations.Graphs : Prop :=
  ∀ (s : State) (o : Operand) (d q : Nat) (space : BitVec 16) (ws : List Word), s.ev = o →
    let src := (wordAt ws 2).toNat
    let dst := (wordAt ws 3).toNat
    let still : Prop := s.linesMove d space .read 4 src 8 = false
    (s.frontOp 2 o = some (d, q, space, ws) →
      ((s.copyWork o).due = [] → exec .copyNodeDone s = .next (s.frontDone o))
      ∧ ((s.copyWork o).due ≠ [] →
        (∀ t, s.frontCopyStep d space o src dst = some t → exec .copyNodeDone s = .next (t.later .copyNodeDone o))
        ∧ (s.frontCopyStep d space o src dst = none → exec .copyNodeDone s = .next (s.frontFail o))))
    ∧ (∀ d q seq ws, (s.queue d q).packets.any (fun p => p.seq == seq) = true →
      (s.startCopy (.pkt d q seq) ws).copyWork (.pkt d q seq) = .of (wordAt ws 4).toNat)
    ∧ (s.frontOp 3 o = some (d, q, space, ws) → still → ∀ x, s.virtWord d space 4 false src = some x →
      (dst ≤ x.toNat → exec .waitNodePoll s = .next (s.frontDone o))
      ∧ (x.toNat < dst → exec .waitNodePoll s = .next (s.dueAt (s.wcc + 256) .waitNodePoll o)))
    ∧ (s.frontOp 3 o = some (d, q, space, ws) → still → s.virtWord d space 4 false src = none →
      exec .waitNodePoll s = .next (s.frontFail o))
    ∧ (s.frontOp 4 o = some (d, q, space, ws) → s.statusHeld o = true →
      exec .signalNodeDone s = .next (s.dueAt (s.wcc + 1) .signalNodeDone o))
    ∧ (∀ g k v, o = .node g k → s.graphs.get? g = some v → (s.statusHeld o = true ↔ v.unstored ≠ []))
    ∧ (s.frontOp 4 o = some (d, q, space, ws) → s.statusHeld o = false → s.storeMoves d space 4 src 8 = false →
      (∀ s1, s.virtStore d space 4 src 8 dst = some s1 → exec .signalNodeDone s = .next (s1.frontDone o))
      ∧ (s.virtStore d space 4 src 8 dst = none → exec .signalNodeDone s = .next (s.frontFail o)))
    ∧ (∀ g k v, o = .node g k → s.graphs.get? g = some v → v.going.contains k = true → v.stOf k = 0 → v.failed = false →
      let s1 := (s.modGraph g fun v => { v with going := without v.going k }).setStatus g k 1
      let node := v.node k
      (nodeKind node = 1 → s1.launchOk v.dev (node.take 8) = true →
        exec .graphNodeStart s = .next (s1.newTJob v.dev v.queue v.seq (some (g, k)) (node.take 8)))
      ∧ (nodeKind node = 1 → s1.launchOk v.dev (node.take 8) = false →
        exec .graphNodeStart s = .next ((s1.failNode g k 3).advanceGraph g))
      ∧ (nodeKind node = 2 → exec .graphNodeStart s = .next (s1.startCopy o node))
      ∧ (nodeKind node = 3 → exec .graphNodeStart s = .next (s1.dueAt s1.wcc .waitNodePoll o))
      ∧ (nodeKind node = 4 → exec .graphNodeStart s = .next (s1.later .signalNodeDone o))
      ∧ (∀ p, nodeKind node = 5 → s1.linesMove v.dev v.space .read 4 (wordAt node 2).toNat 8 = false →
        s1.virtWord v.dev v.space 4 false (wordAt node 2).toNat = some p →
        exec .graphNodeStart s = .next ((s1.endNode g k 2 (some (p != 0))).advanceGraph g))
      ∧ (nodeKind node = 6 → exec .graphNodeStart s = .next ((s1.loopTest g k).advanceGraph g)))
    ∧ (∀ seq, s.frontFail (.pkt d q seq) = s.freezeQueue d q 8 (.pkt d q seq))

/-- R241, R247, R248: a wave finds a job done when nothing of it lives, waits or is under way, and two successive waves that agree
report it; the report completes the LAUNCH and frees the cores, a deadlock freezes the queue. -/
def Claim.Termination : Prop :=
  ∀ (s : State) (j : Nat) (v : TJob), s.ev = .tjob j → s.tjobs.get? j = some v →
    (s.waveKind j v = 1 → s.liveCount j = 0 ∧ s.dequeCount j = 0 ∧ s.timedCount j = 0 ∧ s.engineCount j = 0 ∧ v.sent = v.rcvd)
    ∧ (v.state = .running → s.dequeCount j ≠ 0 → ∃ t w, exec .terminationWave s = .next t ∧ t.tjobs.get? j = some w
      ∧ w.wave = (s.waveKind j v, v.sent) ∧ w.dqEmpty = false)
    ∧ (v.state = .running → let kind := s.waveKind j v
      ∃ t, exec .terminationWave s = .next t
      ∧ (kind ≠ 0 → v.wave = (kind, v.sent) →
        (s.wcc, (if kind = 1 then .jobDoneReport else .jobDeadlockReport), .tjob j) ∈ t.agenda)
      ∧ (kind = 0 ∨ v.wave ≠ (kind, v.sent) → ∀ e ∈ t.agenda, e ∈ s.agenda ∨ e.2.1 = .terminationWave))
    ∧ (v.state ≠ .running → ∃ t w, exec .terminationWave s = .next t ∧ t.tjobs.get? j = some w ∧ w.wave = (0, 0))
    ∧ (v.state = .running → v.wave.1 = 1 → v.node = none → exec .jobDoneReport s
        = .next ({ ((s.endTags j).releaseSet j) with tjobs := ((s.endTags j).releaseSet j).tjobs.drop j }.completePacket v.dev
          v.queue v.seq 0))
    ∧ (v.state = .running → v.wave.1 = 2 → v.node = none → exec .jobDeadlockReport s
        = .next (((s.endTags j).modTJob j fun v => { v with state := .deadlocked }).freezeQueue v.dev v.queue 5 (.tjob j)))

/-- R306, R338, R349 to R351: the host's commands to a queue and its wake writes reach the device through the bridge of its group,
behind the accesses that stand there. A suspension asks every running job to rest; a resume of a suspended queue restarts its jobs,
one after record-fault takes the queue's descriptor anew; a discard retires a bad head with status 9, by the slots that its SZ says
(log 56); bits [1:0] of a QCTL write are the command, and one that the state does not name is ignored and counted; a wake write latches
its bit and begins a fetch, or a wake. The order at the bridge, which reads share, is log 61. -/
def Claim.QueueCommands : Prop :=
  ∀ (s : State) (d q b : Nat) (h r : HostReq) (rest : List HostReq),
    let v := s.queue d q
    let ask := s.modDev b fun v => { v with heldBar2 := v.heldBar2 ++ [r] }
    (s.ev = .queue d q → exec .qctlResume s = .next (s.viaBridge d (.qctl d q 1)) ∧ exec .qctlSuspend s = .next (s.viaBridge d (.qctl d q 2))
      ∧ exec .qctlDiscard s = .next (s.viaBridge d (.qctl d q 3)) ∧ exec .wakeWrite s = .next (s.viaBridge d (.wake d q)))
    ∧ (∀ c, s.ev = .qctl d q c → exec .qctlResume s = .next (s.viaBridge d (.qctl d q c)))
    ∧ (s.bridgeOf d = none → s.viaBridge d r = s.hostAct d r)
    ∧ (s.bridgeOf d = some b → (s.dev b).heldBar2 = [] → ask.heldAtBridge b r = false →
      s.viaBridge d r = (ask.modDev b fun v => { v with heldBar2 := [] }).hostAct b r)
    ∧ (s.bridgeOf d = some b → (s.dev b).heldBar2 = h :: rest → ask.heldAtBridge b h = true → s.viaBridge d r = ask)
    ∧ (∀ c, (c % 4 = 1 → s.hostAct b (.qctl d q c) = s.qctlResume d q) ∧ (c % 4 = 2 → s.hostAct b (.qctl d q c) = s.qctlSuspend d q)
      ∧ (c % 4 = 3 → s.hostAct b (.qctl d q c) = s.qctlDiscard d q) ∧ (c % 4 = 0 → s.hostAct b (.qctl d q c) = s.ignoreCommand d))
    ∧ (let u := if v.en then s else s.loadQueue d q
      ((u.queue d q).state = 0 → ((s.qctlSuspend d q).queue d q).state = 2 ∧ ((s.qctlSuspend d q).queue d q).cause = 10
        ∧ (s.qctlSuspend d q).agenda.length = s.agenda.length + ((s.tjobsOf d q).filter fun e => e.2.state == .running).length)
      ∧ ((u.queue d q).state ≠ 0 → s.qctlSuspend d q = u.ignoreCommand d))
    ∧ (v.state = 2 → s.qctlResume d q = (((s.tjobsOf d q).filter fun e => e.2.state == .suspended).foldl
        (fun st e => st.resumeJob e.1) s).runQueue d q)
    ∧ (v.state = 1 → v.cause = 11 →
      let u := (s.modQueue d q fun v => { v with state := 0, cause := 0 }).loadQueue d q
      s.qctlResume d q = if (u.queue d q).en then u.runQueue d q else u)
    ∧ (∀ e f seq, v.state = 1 → v.cause ≠ 11 → v.culprit = .pkt e f seq →
      s.qctlResume d q = (s.runQueue d q).completePacket d q seq v.cause)
    ∧ (v.state = 0 → s.qctlResume d q = s.ignoreCommand d ∧ s.qctlDiscard d q = s.ignoreCommand d
      ∧ ((s.ignoreCommand d).dev d).ignored = (s.dev d).ignored + 1)
    ∧ (v.state = 1 → v.cause = 1 ∨ v.cause = 2 →
      let w0 := imageWord ((s.headBytes d q 64).getD []) 0
      let p : Packet :=
        { seq := v.next, kind := 0, int := wbits w0 54 1 == 1, words := [], taken := true, started := true, copy := .none
          done := some 9 }
      s.qctlDiscard d q = ((s.modQueue d q fun v =>
        { v with packets := v.packets ++ [p], next := v.next + 1, consumed := v.consumed + 1 + wbits w0 55 1 }).runQueue d q).retirePackets
          d q)
    ∧ (q < 64 →
      let s1 := s.modDev d fun v => { v with latch := v.latch ||| (1 <<< q : BitVec 64) }
      s.hostAct b (.wake d q) = (if (s.dev d).power = 1 then s1.startWake d else s1.beginFetch d q)
      ∧ (s1.dev d).latch.getLsbD q = true)

/-- R241, R247, R248, R338, R349, R351: the termination of thread jobs and the host's commands. -/
def Obligations.TerminationAndQctl : Prop := Claim.Termination ∧ Claim.QueueCommands

/-! ## Host, power, boot, side band, snapshots (R305, R306, R322, R340, R350 to R362) -/

/-- R304 to R306, R322, R350, R362: a BAR2 access that the bridge's table admits is performed at its device, behind those that stand
before it at the bridge, or stands there while its device is gated or a line of it moves; a refused write is dropped and a refused
read aborts, each counted; a read of BAR0 answers with a word of the device at its 8 MiB, and a write there wakes a queue, carries a
command to it or is ignored; an AtomicOps request and an access to an empty position are Unsupported Requests; the link trains to the
highest common rate. Which devices the group holds is log 29, where the host's table stands log 60. -/
def Claim.HostAccesses : Prop :=
  ∀ (s : State) (b off len tag d : Nat) (bs : List Byte),
    let g := off / 2 ^ 39
    let a := off % 2 ^ 39
    let admitted (n : Nat) (wr : Bool) : Bool := (List.range 16).any fun i => s.hostEntry b g a n wr i
    let refused := s.modDev b fun v => { v with refusals := v.refusals + 1 }
    let ready : Prop := (s.dev b).config.bridge = true ∧ g < 8 ∧ s.groupDev b g = some d
    let stands (r : HostReq) : State := s.modDev b fun v => { v with heldBar2 := v.heldBar2 ++ [r] }
    (s.ev = .hostRead b off len tag → ready → (s.dev b).heldBar2 = [] → (s.dev d).power = 0 →
      (stands (.read off len tag)).heldAtBridge b (.read off len tag) = false →
      admitted len false = true → ∃ t, exec .hostBar2Read s = .next t ∧ t.dram = s.dram
        ∧ t.outbox = s.outbox ++ [.readReply tag (s.dramGet d a len)])
    ∧ (s.ev = .hostRead b off len tag → ready → (s.dev b).heldBar2 = [] → (s.dev d).power = 0 →
      (stands (.read off len tag)).heldAtBridge b (.read off len tag) = true → admitted len false = true →
      exec .hostBar2Read s = .next (stands (.read off len tag)))
    ∧ (s.ev = .hostWrite b off bs → ready → (s.dev b).heldBar2 = [] → (s.dev d).power = 0 →
      (stands (.write off bs)).heldAtBridge b (.write off bs) = false →
      admitted bs.length true = true → ∃ t, exec .hostBar2Write s = .next t ∧ t.dram = (s.dramSet d a bs).dram)
    ∧ (s.ev = .hostRead b off len tag → ready → admitted len false = false →
      exec .hostBar2Read s = .next (refused.tell (.completerAbort tag)))
    ∧ (s.ev = .hostWrite b off bs → ready → admitted bs.length true = false → exec .hostBar2Write s = .next refused)
    ∧ (s.ev = .hostRead b off len tag → (s.dev b).config.bridge = true → g < 8 → s.groupDev b g = none →
      exec .hostBar2Read s = .next (s.tell (.unsupportedRequest tag)))
    ∧ (s.ev = .hostAtomic b tag → (s.dev b).config.bridge = true →
      exec .hostBar2Read s = .next (s.tell (.unsupportedRequest tag)))
    ∧ (s.ev = .hostWord b off tag → (s.dev b).config.bridge = true → off < 2 ^ 26 → (s.dev b).heldBar2 = [] →
      (s.groupDev b (off / 2 ^ 23) = none → ∃ t, exec .hostBar2Read s = .next t ∧ t.outbox = s.outbox ++ [.unsupportedRequest tag])
      ∧ (s.groupDev b (off / 2 ^ 23) = some d → ∃ t, exec .hostBar2Read s = .next t
        ∧ t.outbox = s.outbox ++ [.readReply tag (leBytes 8 (s.bar0Word d (off % 2 ^ 23)).toNat)]))
    ∧ (∀ w, s.ev = .hostStore b off w → (s.dev b).config.bridge = true → off < 2 ^ 26 →
      exec .hostBar2Write s = .next (s.hostAsk b (.store off w)))
    ∧ (∀ w, s.groupDev b (off / 2 ^ 23) = some d →
      let o := off % 2 ^ 23
      (o % 8 = 0 → o < 0x200 → s.hostAct b (.store off w) = s.wake d (o / 8))
      ∧ (o % 8 = 0 → 0x400 ≤ o → o < 0x600 → s.hostAct b (.store off w) = s.qctl d ((o - 0x400) / 8) w.toNat)
      ∧ (o % 8 ≠ 0 ∨ (0x200 ≤ o ∧ o < 0x400) ∨ 0x600 ≤ o → s.hostAct b (.store off w) = s))
    ∧ (s.ev = .devNum b len → (s.dev b).config.bridge = true → 4 ≤ len →
      ∃ t, exec .hostLinkTraining s = .next t ∧ (t.dev b).linkRate = Nat.min 6 len)

/-- R352 to R356, R360: an idle device is gated: its dirty lines are written back and its pools and buffers lose their contents; the
end of a wake makes it active; a supply fault turns it off; boot refuses a table or an image that fails its checks, and an
accepted one sets the configuration and the partitions: each by the clusters that PARTS gives it. Where the table names the image is log
26. -/
def Claim.PowerAndBoot : Prop :=
  ∀ (s : State) (d z : Nat),
    (s.ev = .dev d → s.gateDue d = true → ∃ t, exec .powerGateEntry s = .next t ∧ (t.dev d).power = 1 ∧ t.dram = s.dram
      ∧ (∀ e ∈ t.dirty, e.1 / 2 ^ 32 ≠ d) ∧ (∀ e ∈ t.pipes, ¬(d * 256 ≤ e.1 ∧ e.1 < d * 256 + 256)))
    ∧ (s.ev = .dev d → s.gateDue d = false → exec .powerGateEntry s = .next s)
    ∧ (s.ev = .dev d → (s.dev d).waking = true →
      let s1 := s.modDev d fun v => { v with power := 0, waking := false }
      let s2 := (List.range 8).foldl (fun st i =>
        st.drainHeld (d / 8 * 8 + i) (st.dev (d / 8 * 8 + i)).heldBar2.length) s1
      let k := s2.pick 240
      exec .wakeSequenceEnd s = .next ((List.range 64).foldl (fun st q =>
        if (st.dev d).latch.getLsbD q then st.fetchAt d q (st.wcc + 1 + k.1) else st) k.2))
    ∧ (s.ev = .dev d → ∃ t, exec .supplyFault s = .next t ∧ (t.dev d).power = 2 ∧ (t.dev d).bootStatus = 4)
    ∧ (let bs := s.flash.getBytes (flashBase d) 0x100
       let sig := s.flash.getBytes (flashBase d + 0x100) 2820
       let hash := Config.shake256 (s.flash.getBytes (flashBase d + imageNum bs 0x070 8) (imageNum bs 0x078 8))
       s.ev = .dev d → (s.dev d).bootStatus = 1 → (s.dev d).power = 0 →
       if tableAccepted d (s.dev d).floor bs sig = false then
         exec .powerOnBoot s = .next (s.modDev d fun v => { v with bootStatus := 2 })
       else if hash.take 16 ≠ (bs.drop 0x080).take 16 then
         ∃ t, exec .powerOnBoot s = .next t ∧ (t.dev d).bootStatus = 3 ∧ (t.dev d).floor = Nat.max (s.dev d).floor (imageNum bs 4 4)
       else
         ∃ t, exec .powerOnBoot s = .next t ∧ (t.dev d).bootStatus = 0 ∧ (t.dev d).config = tableConfig bs
           ∧ (t.dev d).version = imageNum bs 4 4 ∧ (s.dev d).floor ≤ (t.dev d).version
           ∧ ∀ k, k < 8 →
             let cs := (List.range 8).filter fun i => imageNum bs 0x058 4 / 16 ^ i % 16 == k
             (cs ≠ [] → t.part ⟨d, k⟩ = { Partition.reset with formed := true, clusters := cs })
             ∧ (cs = [] → t.part ⟨d, k⟩ = s.part ⟨d, k⟩))
    ∧ (s.ev = .dev d → exec .sidebandReadStatus s = .next (s.tell (.status d (s.devstat d) (s.dev d).latch)))
    ∧ (s.ev = .devNum d z → (s.dev d).bootStatus ≠ 4 →
      (z = 2 → (s.dev d).power ≠ 2 → exec .sidebandSetPower s = .next (s.powerOff d 1))
      ∧ (z = 0 → (s.dev d).power = 2 → exec .sidebandSetPower s
          = .next (s.modDev d fun v => { v with power := 0, bootStatus := 1 }))
      ∧ (z = 0 → (s.dev d).power = 1 → exec .sidebandSetPower s = .next (s.startWake d)))
    ∧ (s.ev = .devNum d z → (s.dev d).bootStatus = 4 → exec .sidebandSetPower s = .next s)
    ∧ (s.ev = .dev d → (s.dev d).bootStatus = 4 → exec .sidebandClearFault s
        = .next (s.modDev d fun v => { v with bootStatus := 1 }))
    ∧ (s.ev = .devNum d z → s.wcc ≤ z → exec .sidebandNameSnapshot s = .next (s.dueAt z .snapshotCapture (.devNum d z)))

/-- R340, R357 to R359: a snapshot latches every record, of the pipes and of the cores, while none is being written, and counts a drop
otherwise; a pipe that holds a suspended job shows its saved positions, its JOB field being log 28; an attestation answers a nonce of 32
bytes, uses each leaf once, and none is left after 2^20; a message's nonce is its words (log 118); a reload takes the 256 entries of the
firewall's table. -/
def Claim.SnapshotsAndReports : Prop :=
  ∀ (s : State) (d z : Nat) (nonce : List Byte),
    (s.ev = .devNum d z → (s.dev d).snapWriting = true → ∃ t, exec .snapshotCapture s = .next t
      ∧ (t.dev d).drops = (s.dev d).drops + 1 ∧ (t.dev d).snap = (s.dev d).snap)
    ∧ (s.ev = .devNum d z → (s.dev d).snapWriting = false → ∃ t, exec .snapshotCapture s = .next t
      ∧ (t.dev d).captures = (s.dev d).captures + 1 ∧ (t.dev d).drops = 0 ∧ (t.dev d).snapWriting = true
      ∧ (t.dev d).snap.head? = some (0, toWord z) ∧ t.cores = s.cores ∧ t.ctxs = s.ctxs ∧ t.pipes = s.pipes
      ∧ (∀ p i w, p < 192 → (s.pipeRecord ⟨d, p⟩)[i]? = some w → (0x40 + 64 * p + 8 * i, w) ∈ (t.dev d).snap)
      ∧ (∀ c i w, c < 1152 → (s.coreRecord (snapCore d c))[i]? = some w → (0x3040 + 192 * c + 8 * i, w) ∈ (t.dev d).snap))
    ∧ (∀ (p : PipeRef) (j : Nat) (x : SmallState), (s.pipe p).job = none → (s.pipe p).suspended = some j → (s.pipe p).saved = some x →
      (s.pipeRecord p)[1]? = some (toWord (j % 0xFFFF * 2 ^ 48 + 4 * 2 ^ 45))
      ∧ ∀ (i : Nat) (y : Stream), x.streams[i]? = some y → (s.pipeRecord p)[2 + i]? = some (toWord (y.pos % 2 ^ 16)))
    ∧ (∀ (p : PipeRef) (j : Nat), (s.pipe p).job = some j → ∀ e : Engine,
      (s.pipeRecord p)[2 + e.idx]? = some (toWord ((s.stream ⟨p, e⟩).pos % 2 ^ 16)))
    ∧ (s.ev = .dev d → (s.dev d).snapWriting = true → exec .snapshotWriteDone s
        = .next (((s.dev d).snap.foldl (fun st x => st.dramSetNum d ((s.dev d).config.snapbase + x.1) 8 x.2.toNat) s).modDev d
          fun v => { v with snapWriting := false, snap := [] }))
    ∧ (s.ev = .dev d → ∃ t, exec .firewallReload s = .next t ∧ (t.dev d).fwValid = true
      ∧ ∀ i, i < 256 → (t.dev d).firewall.get? i = some (toWord (s.dramNum d ((s.dev d).config.fwbase + 16 * i) 8),
          toWord (s.dramNum d ((s.dev d).config.fwbase + 16 * i + 8) 8)))
    ∧ (s.ev = .devBytes d nonce → nonce.length ≠ 32 → exec .sidebandAttest s = .next s)
    ∧ (∀ m : Message, s.ev = .message m → m.dest.dev = some d →
      let nonce : List Byte := (m.words.map fun w => leBytes 8 w.toNat).flatten
      (s.attests m.dest = true → s.firewall d m = true → exec .sidebandAttest s = .next (s.attest d nonce))
      ∧ (s.attests m.dest = false ∨ s.firewall d m = false → exec .sidebandAttest s = .next s))
    ∧ (s.ev = .devBytes d nonce → nonce.length = 32 → 2 ^ 20 ≤ (s.dev d).leaf → exec .sidebandAttest s = .next (s.tell (.attestation d none)))
    ∧ (s.ev = .devBytes d nonce → nonce.length = 32 → (s.dev d).leaf < 2 ^ 20 → ∃ t r, exec .sidebandAttest s = .next t
      ∧ (t.dev d).leaf = (s.dev d).leaf + 1 ∧ t.outbox = s.outbox ++ [.attestation d (some r)] ∧ nonce.isPrefixOf r = true)

/-- R305, R306, R322, R340, R350 to R362: the host, power, boot, the side band, snapshots. -/
def Obligations.HostAndPower : Prop := Claim.HostAccesses ∧ Claim.PowerAndBoot ∧ Claim.SnapshotsAndReports

/-! ## The fabric (R277, R282, R285 to R303) -/

/-- R277, R282, R285 to R288, R290, R294, R296, R297: a lost switch is down with its contents gone, and its notice is on its way to
every device; a readmitted one has the next incarnation; a port is lost to its device alone; a link retrains after four replays and
is lost after 100 µs; a stomped packet stands before those that come after it; quotas, path tables and formation. A lost port leaves
guests on mirrored ranges where they are (log 32). -/
def Claim.LossAndLinks : Prop :=
  ∀ (s : State) (d k n : Nat) (ds : List Nat) (space : Nat) (p : FabricPacket),
    (s.ev = .switchDevs k ds → k < 24 → (s.switch k).up = true → ds = [] → ∃ t, exec .switchLossNotice s = .next t
      ∧ (t.switch k).up = false ∧ (t.switch k).inc = (s.switch k).inc ∧ t.tier = s.tier.clear (tierAddr k 0) (2 ^ 38)
      ∧ ∀ e, e < Config.devices → ∃ n, n ≤ s.wcc + 52500 ∧ (n, .switchLossNotice, .switchDevs k [e]) ∈ t.agenda)
    ∧ (s.ev = .switchDevs k ds → k < 24 → (s.switch k).up = false →
      exec .switchLossNotice s = .next (ds.foldl (fun st d => st.notice k d) s))
    ∧ (s.notice k d = if (s.dev d).lost.contains k then s else
        let s1 := s.modDev d fun v => { v with lost := k :: v.lost }
        (s1.actOnLoss d k ((s1.switch k).tookPair || (s1.primary (k / 2)).isNone) true).isolate d)
    ∧ (s.ev = .port d k → k < 24 →
      let s3 := ((((s.modPort d k fun v => { v with up := false }).modDev d
        fun v => { v with portLost := if v.portLost.contains k then v.portLost else k :: v.portLost }).actOnLoss d k false
          false).isolate d).modSwitch k fun v =>
        { v with losses := (s.wcc, d) :: v.losses.filter fun e => e.2 != d && decide (s.wcc < e.1 + 1050000) }
      exec .portLossNotice s = .next (if 96 < (s3.switch k).losses.length ∧ (s3.switch k).up then
          s3.dueAt s.wcc .switchLossNotice (.switchDevs k [])
        else s3))
    ∧ (s.ev = .port d k → ∃ t, exec .portLossClear s = .next t ∧ (t.port d k).up = true
      ∧ (t.dev d).portLost = without (s.dev d).portLost k)
    ∧ (s.ev = .switch k → k < 24 → (s.switch k).up = false → (s.switch k).inc < 63 →
      let r := s.deliverNotices k
      ((∀ e ∈ s.agenda, e.2.1 ≠ .switchLossNotice) → r = s)
      ∧ ∃ t, exec .switchReadmission s = .next t ∧ (t.switch k).up = true ∧ (t.switch k).inc = (r.switch k).inc + 1
        ∧ ((t.switch k).filling = true ↔ r.primary (k / 2) ≠ none) ∧ ∀ e, k ∉ (t.dev e).lost)
    ∧ (s.ev = .switch k → 63 ≤ (s.switch k).inc → exec .switchReadmission s = .next s)
    ∧ (∀ q, s.ev = .switch k → (s.switch k).filling = true → s.primary (k / 2) = some q →
      exec .mirrorFillDone s = .next ((s.fillMember k q).modSwitch k fun v => { v with filling := false }))
    ∧ (s.ev = .port d k → (s.port d k).up = true → (s.port d k).retraining = false →
      ((s.port d k).replays < 3 → ∃ t, exec .flitReplay s = .next t ∧ (t.port d k).replays = (s.port d k).replays + 1)
      ∧ (3 ≤ (s.port d k).replays → ∃ t, exec .flitReplay s = .next t ∧ (t.port d k).retraining = true
        ∧ (s.wcc + 105000, .linkDown, .port d k) ∈ t.agenda))
    ∧ (s.ev = .port d k → (s.port d k).retraining = true →
      (∃ t, exec .linkRetrainDone s = .next t ∧ (t.port d k).retraining = false
        ∧ ∀ e ∈ t.agenda, ¬(e.2.1 = .linkDown ∧ e.2.2 = .port d k))
      ∧ ∃ t, exec .linkDown s = .next t ∧ (t.port d k).up = false ∧ (t.port d k).retraining = false)
    ∧ (s.ev = .packet d k p → exec .packetStomp s
        = .next ((s.modPort d k fun v => { v with retry := v.retry ++ [p] }).later .fabricPacketReceive (.packet d k p)))
    ∧ (s.ev = .quota k space n → k < 24 → n ≤ granules → exec .quotaChange s
        = .next (s.modSwitch k fun v => { v with quota := v.quota.put space n }))
    ∧ ((∀ d e alts, s.ev ≠ .paths d e alts) → ∃ t, exec .domainFormation s = .next t ∧ t.allocs = [] ∧ t.tier = [] ∧ t.epoch = s.wcc
      ∧ (t.switch k).inc = 1 ∧ (t.switch k).up = true ∧ (t.port d k).nextIn = [])
    ∧ (∀ e alts, s.ev = .paths d e alts → ∃ t, exec .domainFormation s = .next t ∧ (t.dev d).paths.get? e = some (alts.take 4))

/-- R291, R295, R297 to R300: a packet is applied once, when its header, its key and its tag are good, and counted as an error
otherwise; one whose tag failed or whose port is down is sent again where its source keeps it, by the alternative that is valid, and
those of higher SEQ from there wait behind it; one that comes while packets of its link are replayed waits behind them; control flits,
a frame's tag that fails losing the timed data of that frame (log 109); a key is loaded with its counters and its spaces (log 66),
zeroed on every port, and stopped when a counter wraps. -/
def Claim.PacketsAndKeys : Prop :=
  ∀ (s : State) (d k : Nat) (p : FabricPacket),
    let v := s.port d k
    let src := wbits p.w0 36 8
    let seq := wbits p.w1 32 32
    let seen := ((s.dev d).seen.get? src).getD []
    let sound := headerOk p && v.admits p && kindMatches p
    let good := sound && (wbits p.w0 18 1 == 0 || p.tagOk)
    let again (t : State) : Prop :=
      (p.kept = true → ∃ n, (n, .fabricPacketReceive, .packet d k { p with tagOk := true, resent := true }) ∈ t.agenda)
      ∧ (p.kept = false → t.agenda = s.agenda)
    (s.ev = .packet d k p → p.resent = false → v.up = true → v.before p = false → s.behindResent d p = false →
      (headerOk p = false ∨ v.admits p = false →
        ∃ t, exec .fabricPacketReceive s = .next t ∧ (t.port d k).errors = v.errors + 1 ∧ t.agenda = s.agenda)
      ∧ (sound = true → wbits p.w0 18 1 = 1 → p.tagOk = false →
        ∃ t, exec .fabricPacketReceive s = .next t ∧ (t.port d k).errors = v.errors + 1 ∧ again t)
      ∧ (∀ m, good = true → p.content = .message m → seen.contains seq = true →
        ∃ t, exec .fabricPacketReceive s = .next t ∧ t.agenda = s.agenda)
      ∧ (∀ m, good = true → p.content = .message m → seen.contains seq = false →
        ∃ t, exec .fabricPacketReceive s = .next t ∧ t.agenda = s.agenda ++ [(s.wcc, .messageArrival, .message m)]
          ∧ (t.dev d).seen.get? src = some (seq :: seen)))
    ∧ (s.ev = .packet d k p → p.resent = false → v.up = false → ∃ t, exec .fabricPacketReceive s = .next t ∧ again t)
    ∧ (s.ev = .packet d k p → p.resent = false → v.up = true → v.before p = true ∨ s.behindResent d p = true →
      ∃ t, exec .fabricPacketReceive s = .next t
        ∧ t.agenda = s.agenda ++ [(s.wcc + 1, .fabricPacketReceive, .packet d k p)] ∧ t.devs = s.devs)
    ∧ (s.ev = .packet d k p → p.resent = true →
      (s.path p.sender src d = none →
        exec .fabricPacketReceive s = .next (s.dueAt (s.wcc + 1) .fabricPacketReceive (.packet d k p)))
      ∧ (∀ n, s.path p.sender src d = some n → (s.port d n).up = true → (s.port d n).before p = false →
        s.behindResent d p = false → exec .fabricPacketReceive s
          = .next ((s.modPort d n fun v => { v with retry := v.retry.erase p }).takePacket d n p)))
    ∧ (∀ slot ok, s.ev = .control d k (.tag slot ok) →
      (ok = true → (v.keys.get? slot).isSome = true → ∃ t, exec .controlFlit s = .next t ∧ (t.port d k).errors = v.errors
        ∧ t.agenda = s.agenda)
      ∧ (ok = false ∨ v.keys.get? slot = none → ∃ t, exec .controlFlit s = .next t ∧ (t.port d k).errors = v.errors + 1
        ∧ ∀ e ∈ t.agenda, e ∈ s.agenda))
    ∧ (∀ (x : PipeRef × Nat) (f : LoadUnit → Bool) e,
      let units := (((s.pipe x.1).ops.get? x.2).map fun o => o.units).getD []
      e ∈ (s.loseData x f).agenda ↔ e ∈ s.agenda
        ∧ ¬ ∃ u unit, e.2.1 = .loadLanding ∧ e.2.2 = .op x.1 x.2 u ∧ units[u]? = some unit ∧ f unit = true)
    ∧ (∀ n, s.ev = .control d k (.credits n) → exec .controlFlit s
        = .next (s.modPort d k fun v => { v with credits := v.credits + n }))
    ∧ (∀ ms w0 p0, s.ev = .control d k (.align ms w0 p0) →
        exec .controlFlit s = .next (s.dueAt (Nat.max s.wcc w0) .alignPartitions (.align ms p0)))
    ∧ (∀ out key mask, s.ev = .slotMask d k out key mask → exec .controlFlit s = .next (s.writeMask d k out key mask))
    ∧ (∀ slot wrapped ports spaces, s.ev = .keyLoad d slot wrapped ports spaces → slot < 16 →
      ∃ t, exec .keySlotLoad s = .next t ∧ ∀ x ∈ ports, match Config.aesUnwrap d wrapped with
        | some key => (t.port d x).keys.get? slot = some { key := key, outbound := 0, inbound := 0, spaces := spaces }
        | none => t.port d x = s.port d x)
    ∧ (∀ slot, s.ev = .keySlot d slot → ∃ t, exec .keySlotZero s = .next t ∧ ∀ x, x < 24 → (t.port d x).keys.get? slot = none
        ∧ ∀ e, (s.port d x).keys.get? slot = some e → ∀ n ∈ e.spaces, n ∈ (t.port d x).zeroed)
    ∧ (∀ slot, s.ev = .nonce d k slot → ∃ t, exec .nonceCounterWrap s = .next t ∧ slot ∈ (t.port d k).stopped
      ∧ t.outbox = s.outbox ++ [.fabricReport d k])

/-- R277, R282, R285 to R300: losses, links, packets, keys. -/
def Obligations.Fabric : Prop := Claim.LossAndLinks ∧ Claim.PacketsAndKeys

/-- R301 to R303: the service takes every request below the new index, and a good send or write leaves with its data in packets of at
most 4,096 bytes; a send that has arrived lands in the oldest receive, and ends it; a write is checked against its region; a packet
under ROD waits its turn; an acknowledged, refused or abandoned request ends with its status. That a send without a posted receive is
refused is log 63, that the accesses use master class 0 log 62. -/
def Obligations.UltraEthernet : Prop :=
  ∀ (s : State) (d q n : Nat) (ws : List Word),
    let v := s.ue d q
    let refuse (peer : Nat) : Out := .next (s.refuseInbound d q peer)
    (s.ev = .ueWork d q n →
      (n ≤ v.consumer → ∃ t, exec .ueWorkRequest s = .next t ∧ (t.ue d q).consumer = v.consumer ∧ t.outbox = s.outbox)
      ∧ exec .ueWorkRequest s = .next (((List.range (n - v.consumer)).foldl (fun st i => st.takeRequest d q (v.consumer + i)) s).modUe
          d q fun u => { u with consumer := Nat.max v.consumer n })
      ∧ (v.outstanding.get? n = some ws → exec .ueRetriesExhausted s
          = .next ((s.modUe d q fun u => { u with outstanding := u.outstanding.drop n }).endRequest d q ws 1 0)))
    ∧ (∀ peer bs, v.peers[wbits (wordAt ws 2) 0 16]? = some peer →
      s.virtGet d v.space ueClass (wordAt ws 1).toNat (requestLen ws) = some bs →
      let t := s.sendRequest d q n ws
      (t.ue d q).outstanding.get? n = some ws
      ∧ (∀ x ∈ packetsOf bs, x.length ≤ 4096) ∧ (packetsOf bs).flatten = bs
      ∧ t.outbox = s.outbox ++ [.ueSend d q n peer
          (if wbits (wordAt ws 0) 54 2 = 1 then some ((v.nextOut.get? peer).getD 0) else none)
          (if requestOp ws = 2 then some (wordAt ws 3, wbits (wordAt ws 4) 0 32) else none) (packetsOf bs)])
    ∧ (∀ count, s.ev = .uePacket d q (.done n count) → v.outstanding.get? n = some ws → exec .uePacketReceive s
        = .next ((s.modUe d q fun u => { u with outstanding := u.outstanding.drop n }).endRequest d q ws 0 count))
    ∧ (s.ev = .uePacket d q (.refusal n) → v.outstanding.get? n = some ws → exec .uePacketReceive s
        = .next ((s.modUe d q fun u => { u with outstanding := u.outstanding.drop n }).endRequest d q ws 2 0))
    ∧ (∀ peer bs rest, s.ev = .uePacket d q (.send peer n bs.length 0 none bs) → v.landings = [] → v.receives = ws :: rest →
      ws ≠ [] → bs.length ≤ 4096 →
      let s1 := s.modUe d q fun u => { u with receives := rest }
      (∀ t, bs.length ≤ requestLen ws → s1.virtPut d (s1.ue d q).space ueClass (wordAt ws 1).toNat bs = some t →
        exec .uePacketReceive s = .next ((t.setLanding d q bs.length
          { peer := peer, number := n, receive := ws, count := bs.length }).endRequest d q ws 0 bs.length))
      ∧ (requestLen ws < bs.length → exec .uePacketReceive s = .next (((s1.endRequest d q ws 2 0).tell (.ueRefuse d q peer)).setLanding
          d q bs.length { peer := peer, number := n, receive := [], count := bs.length })))
    ∧ (∀ peer bs, s.ev = .uePacket d q (.send peer n bs.length 0 none bs) → v.landings = [] → v.receives = [] → bs.length ≤ 4096 →
      exec .uePacketReceive s = .next ((s.tell (.ueRefuse d q peer)).setLanding d q bs.length
        { peer := peer, number := n, receive := [], count := bs.length }))
    ∧ (∀ peer total off rod bs, s.ev = .uePacket d q (.send peer n total off rod bs) → 4096 < bs.length →
      exec .uePacketReceive s = refuse peer)
    ∧ (∀ peer (addr : Word) rkey bs base size t, s.ev = .uePacket d q (.rmaWrite peer addr rkey none bs) → bs.length ≤ 4096 →
      v.regions.get? rkey = some (base, size) →
      (size < addr.toNat + bs.length → exec .uePacketReceive s = .next (s.tell (.ueRefuse d q peer)))
      ∧ (addr.toNat + bs.length ≤ size → s.virtPut d v.space ueClass (base.toNat + addr.toNat) bs = some t →
        exec .uePacketReceive s = .next t))
    ∧ (∀ peer (addr : Word) rkey m last bs, s.ev = .uePacket d q (.rmaWrite peer addr rkey (some (m, last)) bs) → bs.length ≤ 4096 →
      let next := (v.nextIn.get? peer).getD 0
      (next < m → exec .uePacketReceive s = .next (s.dueAt (s.wcc + 1) .uePacketReceive s.ev))
      ∧ (m < next → exec .uePacketReceive s = .next s)
      ∧ (m = next → last = true → ∃ t, exec .uePacketReceive s = .next t
        ∧ (t.ue d q).nextIn.get? peer = some (m + 1)))

/-! ## The domain as a whole: encodings, the step, reset, the invariant (R11, R22 to R31, R236, R237, R355) -/

/-- R22 to R31: encoding and decoding agree for every legal instruction that has a word: thread words in the four bytes at an
address, pairs in eight, stream words in the table of each engine that has them. -/
def Obligations.EncodeDecodeRoundTrip : Prop :=
  ∀ i : Instr, i.wf = true →
    (i.isThread = true → encodeThread i < 2 ^ 32 ∧ decodeThread (encodeThread i) = some i
      ∧ ∀ rest : List Byte, decodeCode (leBytes 4 (encodeThread i) ++ rest) = .ok (i, 4))
    ∧ (i.isPair = true → isPrefix (encodePair i).1 = true
      ∧ ∀ rest : List Byte,
          decodeCode (leBytes 4 (encodePair i).1 ++ leBytes 4 (encodePair i).2 ++ rest) = .ok (i, 8))
    ∧ (∀ e : Engine, i.isWordOf e = true → encodeStream i < 2 ^ 16 ∧ decodeStream e (encodeStream i) = some i)

/-- The memories keep their canonical form, and the wall cycle counter never goes back (R4). -/
def Obligations.EveryStepKeepsTheMemories : Prop :=
  ∀ s t : State, s.memoriesWf → step s = .next t → t.memoriesWf ∧ s.wcc ≤ t.wcc

/-- R37, R119: no instruction, word or event stops the machine: thread faults trap, stream faults freeze a job. -/
def Obligations.EveryInstructionAnswers : Prop :=
  (∀ (i : Instr) (s : State), ∃ t, exec i s = .next t) ∧ ∀ s : State, Safe s

/-- Reset: the memories hold nothing, no context is live, all devices wait for their boot (R355), the PCC of a partition that is
not formed reads 0 (R67), tensor scales are 1.0 (R129). The zero registers are the model's choice [log 1]. -/
def Obligations.ResetState : Prop :=
  State.reset.memoriesWf ∧ State.reset.wcc = 0
  ∧ (∀ t : CtxRef, (State.reset.ctx t).mode = .free ∧ (State.reset.ctx t).stores = [] ∧ (State.reset.ctx t).home = none)
  ∧ (∀ c : CoreRef, (State.reset.core c).powered = false ∧ (State.reset.core c).dqLen = 0)
  ∧ (∀ d : Nat, (State.reset.dev d).bootStatus = 1 ∧ (State.reset.dev d).version = 0 ∧ (State.reset.dev d).change = none)
  ∧ (∀ k : PartRef, (State.reset.part k).formed = false ∧ (State.reset.part k).pcc = 0)
  ∧ (∀ p : PipeRef, (State.reset.pipe p).job = none ∧ (State.reset.pipe p).scaleW = 0x3F800000
      ∧ (State.reset.pipe p).scaleA = 0x3F800000 ∧ (State.reset.pipe p).anchor = none)
  ∧ (∀ d q : Nat, (State.reset.queue d q).state = 3)
  ∧ (∀ k : Nat, (State.reset.switch k).up = true ∧ (State.reset.switch k).inc = 1)
  ∧ step State.reset = exec .powerOnBoot { State.reset with ev := .dev 0 }

/-- R236, R237, R113 to R115: a step runs the decoded instruction. In the issue slots, the first core in which a context may act
runs the instruction at that context's PC, a failed fetch or an illegal word; a stream that decodes runs its next free word
at once, and a launch word when its stamp is the current cycle; an event in flight acts with its operand. Which agent acts first inside a
wall cycle, so the phases, the order of the cores, and the streams with SEQ last, is the model's choice (logs 5 and 37). -/
def Obligations.StepRunsTheDecodedInstruction : Prop :=
  (∀ (s : State) (c : Nat) (v : Core) (before after : Table Core) (n : Nat), s.phase = 3 → s.cores = before ++ (c, v) :: after →
    (∀ e ∈ before, s.slotTurn (.ofCode e.1) e.2 = none) →
    let k := CoreRef.ofCode c
    s.coreRuns k = true → (∀ m, m < 16 → (s.ctx ⟨k, m⟩).mode ≠ .resume) →
    v.stall ≤ s.wcc → v.lastIssue ≠ some s.wcc → (v.rot.find? fun m => s.mayIssue k v m) = some n →
    let pc := (s.ctx ⟨k, n⟩).pc.toNat
    (∀ bs i, s.fetchBytes ⟨k, n⟩ pc 4 = .ok bs → wordOf bs / 2 ^ 26 % 64 ≠ 0x3F → decodeThread (wordOf bs) = some i →
      bs.length = 4 → step s = exec i (s.takeSlot ⟨k, n⟩ i))
    ∧ (∀ bs i, s.codeBytes ⟨k, n⟩ = .ok bs → decodeCode bs = .ok (i, 8) → step s = exec i (s.takeSlot ⟨k, n⟩ i))
    ∧ (∀ bs r, s.codeBytes ⟨k, n⟩ = .ok bs → decodeCode bs = .error r →
      step s = exec .illegalInstruction (s.takeSlot ⟨k, n⟩ .illegalInstruction))
    ∧ (∀ c, s.fetchBytes ⟨k, n⟩ pc 4 = .error c → step s = exec .fetchFault (s.takeSlot ⟨k, n⟩ .fetchFault))
    ∧ (∀ i : Instr, (s.takeSlot ⟨k, n⟩ i).tf = ⟨k, n⟩ ∧ (s.takeSlot ⟨k, n⟩ i).pool = s.pool
      ∧ (s.takeSlot ⟨k, n⟩ i).dram = s.dram ∧ (s.takeSlot ⟨k, n⟩ i).me
        = { s.ctx ⟨k, n⟩ with last := some s.wcc, cur := some i, phase := 0, held := none, asked := none }))
  ∧ (∀ (s : State) (p : PipeRef) (j : Nat) (v : Job) (before after : List (PipeRef × Nat × Job)) (es fs : List Engine) (e : Engine),
    s.phase = 1 → s.activePipes false ++ s.activePipes true = before ++ (p, j, v) :: after →
    (∀ x ∈ before, ∀ k, s.streamTurn x.2.1 x.2.2 ⟨x.1, k⟩ = none) → streamOrder = es ++ e :: fs →
    (∀ k ∈ es, s.streamTurn j v ⟨p, k⟩ = none) →
    let x : StreamRef := ⟨p, e⟩
    let t := s.stream x
    let s1 := { (s.modStream x fun t => { t with pos := t.pos + 1, budget := t.budget + 1, taken := false }) with sf := x }
    (s.part v.part).held = false → (s.pipe p).budgetHeld = false →
    (t.dec = .decoding → t.budget < 4 → v.entryAt t e = none →
      (∀ w i, t.code[t.pos]? = some w → decodeStream e w.toNat = some i → isFreeWord i = true → step s = exec i s1)
      ∧ (∀ w, t.code[t.pos]? = some w → decodeStream e w.toNat = none → step s = exec .illegalWord s1)
      ∧ (t.code[t.pos]? = none → step s = exec .runOff { s with sf := x })
      ∧ (∀ w i, t.code[t.pos]? = some w → decodeStream e w.toNat = some i → isFreeWord i = false → v.compat = false →
        let s2 := s1.becomeReady j v i
        ∀ stamp, (s2.stream x).dec = .launch i stamp → s2.clock v p = stamp → s2.part v.part = s.part v.part →
          (s2.pipe p).budgetHeld = false → step s = exec i s2))
    ∧ (∀ i, v.compat = false → t.dec = .launch i (s.clock v p) → step s = exec i { s with sf := x }))
  ∧ (∀ (s : State) (at_ : Nat) (i : Instr) (o : Operand) (rest : List (Nat × Instr × Operand)), s.phase = 0 → s.bootTurn = none →
    s.holdTurn = none → (firstTurn s.jobs fun e => s.jobTurn e.1 e.2) = none → s.requestTurn = none →
    s.agenda = (at_, i, o) :: rest → at_ ≤ s.wcc → isLate i = false → i ≠ .postArrival → i ≠ .stealProbeComplete →
    s.keptBack i o = false →
    step s = exec i { s with agenda := rest, ev := o })

/-- R22, R26, R29, R30: words written out from the encodings of the spec stand for the instructions that these name. -/
def Obligations.DecodedWords : Prop :=
  decodeThread 0b000001_0_111_0001_0010_0011_0000000000 = some (.add ⟨0, 7⟩ 1 2 3)
  ∧ decodeThread 0b001000_1_010_0001_0010_11111111111111 = some (.addi ⟨1, 2⟩ 1 2 0x3FFF)
  ∧ decodeStream .seq 0b0000_0000_0000_0101 = some (.lit 5)
  ∧ decodeThread 0 = none ∧ decodeStream .mxe 0xFFFF = none
end

