-- ==== Sys2Proof/Laws/Exec.lean ====
section
/-! SUPPORT. What exec answers for each constructor: its meaning. One equation each, so that no proof unfolds exec. -/

namespace Sys2Proof.Machine

theorem exec_add (g : Guard) (d a b : Reg) (s : State) : exec (.add g d a b) s = execAdd g d a b s := rfl
theorem exec_sub (g : Guard) (d a b : Reg) (s : State) : exec (.sub g d a b) s = execSub g d a b s := rfl
theorem exec_mul (g : Guard) (d a b : Reg) (s : State) : exec (.mul g d a b) s = execMul g d a b s := rfl
theorem exec_mulhI64 (g : Guard) (d a b : Reg) (s : State) : exec (.mulhI64 g d a b) s = execMulhI64 g d a b s := rfl
theorem exec_mulhN64 (g : Guard) (d a b : Reg) (s : State) : exec (.mulhN64 g d a b) s = execMulhN64 g d a b s := rfl
theorem exec_divI64 (g : Guard) (d a b : Reg) (s : State) : exec (.divI64 g d a b) s = execDivI64 g d a b s := rfl
theorem exec_divN64 (g : Guard) (d a b : Reg) (s : State) : exec (.divN64 g d a b) s = execDivN64 g d a b s := rfl
theorem exec_remI64 (g : Guard) (d a b : Reg) (s : State) : exec (.remI64 g d a b) s = execRemI64 g d a b s := rfl
theorem exec_remN64 (g : Guard) (d a b : Reg) (s : State) : exec (.remN64 g d a b) s = execRemN64 g d a b s := rfl
theorem exec_addsatI64 (g : Guard) (d a b : Reg) (s : State) :
    exec (.addsatI64 g d a b) s = execAddsatI64 g d a b s := rfl
theorem exec_subsatI64 (g : Guard) (d a b : Reg) (s : State) :
    exec (.subsatI64 g d a b) s = execSubsatI64 g d a b s := rfl
theorem exec_abs (g : Guard) (d a : Reg) (s : State) : exec (.abs g d a) s = execAbs g d a s := rfl
theorem exec_neg (g : Guard) (d a : Reg) (s : State) : exec (.neg g d a) s = execNeg g d a s := rfl
theorem exec_and (g : Guard) (d a b : Reg) (s : State) : exec (.and g d a b) s = execAnd g d a b s := rfl
theorem exec_or (g : Guard) (d a b : Reg) (s : State) : exec (.or g d a b) s = execOr g d a b s := rfl
theorem exec_xor (g : Guard) (d a b : Reg) (s : State) : exec (.xor g d a b) s = execXor g d a b s := rfl
theorem exec_andn (g : Guard) (d a b : Reg) (s : State) : exec (.andn g d a b) s = execAndn g d a b s := rfl
theorem exec_orn (g : Guard) (d a b : Reg) (s : State) : exec (.orn g d a b) s = execOrn g d a b s := rfl
theorem exec_xnor (g : Guard) (d a b : Reg) (s : State) : exec (.xnor g d a b) s = execXnor g d a b s := rfl
theorem exec_shl (g : Guard) (d a b : Reg) (s : State) : exec (.shl g d a b) s = execShl g d a b s := rfl
theorem exec_shr (g : Guard) (d a b : Reg) (s : State) : exec (.shr g d a b) s = execShr g d a b s := rfl
theorem exec_sar (g : Guard) (d a b : Reg) (s : State) : exec (.sar g d a b) s = execSar g d a b s := rfl
theorem exec_rol (g : Guard) (d a b : Reg) (s : State) : exec (.rol g d a b) s = execRol g d a b s := rfl
theorem exec_ror (g : Guard) (d a b : Reg) (s : State) : exec (.ror g d a b) s = execRor g d a b s := rfl
theorem exec_clz (g : Guard) (d a : Reg) (s : State) : exec (.clz g d a) s = execClz g d a s := rfl
theorem exec_ctz (g : Guard) (d a : Reg) (s : State) : exec (.ctz g d a) s = execCtz g d a s := rfl
theorem exec_popc (g : Guard) (d a : Reg) (s : State) : exec (.popc g d a) s = execPopc g d a s := rfl
theorem exec_brev (g : Guard) (d a : Reg) (s : State) : exec (.brev g d a) s = execBrev g d a s := rfl
theorem exec_bswap (g : Guard) (d a : Reg) (s : State) : exec (.bswap g d a) s = execBswap g d a s := rfl
theorem exec_minI64 (g : Guard) (d a b : Reg) (s : State) : exec (.minI64 g d a b) s = execMinI64 g d a b s := rfl
theorem exec_maxI64 (g : Guard) (d a b : Reg) (s : State) : exec (.maxI64 g d a b) s = execMaxI64 g d a b s := rfl
theorem exec_minN64 (g : Guard) (d a b : Reg) (s : State) : exec (.minN64 g d a b) s = execMinN64 g d a b s := rfl
theorem exec_maxN64 (g : Guard) (d a b : Reg) (s : State) : exec (.maxN64 g d a b) s = execMaxN64 g d a b s := rfl
theorem exec_sextI8 (g : Guard) (d a : Reg) (s : State) : exec (.sextI8 g d a) s = execSextI8 g d a s := rfl
theorem exec_sextI16 (g : Guard) (d a : Reg) (s : State) : exec (.sextI16 g d a) s = execSextI16 g d a s := rfl
theorem exec_sextI32 (g : Guard) (d a : Reg) (s : State) : exec (.sextI32 g d a) s = execSextI32 g d a s := rfl
theorem exec_zextN8 (g : Guard) (d a : Reg) (s : State) : exec (.zextN8 g d a) s = execZextN8 g d a s := rfl
theorem exec_zextN16 (g : Guard) (d a : Reg) (s : State) : exec (.zextN16 g d a) s = execZextN16 g d a s := rfl
theorem exec_zextN32 (g : Guard) (d a : Reg) (s : State) : exec (.zextN32 g d a) s = execZextN32 g d a s := rfl
theorem exec_mov (g : Guard) (d a : Reg) (s : State) : exec (.mov g d a) s = execMov g d a s := rfl
theorem exec_sel (g : Guard) (d a b : Reg) (k : BitVec 3) (s : State) :
    exec (.sel g d a b k) s = execSel g d a b k s := rfl
theorem exec_lea (g : Guard) (d a b : Reg) (k : BitVec 2) (s : State) :
    exec (.lea g d a b k) s = execLea g d a b k s := rfl
theorem exec_addi (g : Guard) (d a : Reg) (i : BitVec 14) (s : State) :
    exec (.addi g d a i) s = execAddi g d a i s := rfl
theorem exec_andi (g : Guard) (d a : Reg) (i : BitVec 14) (s : State) :
    exec (.andi g d a i) s = execAndi g d a i s := rfl
theorem exec_ori (g : Guard) (d a : Reg) (i : BitVec 14) (s : State) : exec (.ori g d a i) s = execOri g d a i s := rfl
theorem exec_xori (g : Guard) (d a : Reg) (i : BitVec 14) (s : State) :
    exec (.xori g d a i) s = execXori g d a i s := rfl
theorem exec_movi (g : Guard) (d : Reg) (i : BitVec 14) (s : State) : exec (.movi g d i) s = execMovi g d i s := rfl
theorem exec_inshi (g : Guard) (d : Reg) (i : BitVec 14) (s : State) : exec (.inshi g d i) s = execInshi g d i s := rfl
theorem exec_muli (g : Guard) (d a : Reg) (i : BitVec 14) (s : State) :
    exec (.muli g d a i) s = execMuli g d a i s := rfl
theorem exec_addiLong (g : Guard) (d a : Reg) (i : BitVec 32) (s : State) :
    exec (.addiLong g d a i) s = execAddiLong g d a i s := rfl
theorem exec_andiLong (g : Guard) (d a : Reg) (i : BitVec 32) (s : State) :
    exec (.andiLong g d a i) s = execAndiLong g d a i s := rfl
theorem exec_oriLong (g : Guard) (d a : Reg) (i : BitVec 32) (s : State) :
    exec (.oriLong g d a i) s = execOriLong g d a i s := rfl
theorem exec_xoriLong (g : Guard) (d a : Reg) (i : BitVec 32) (s : State) :
    exec (.xoriLong g d a i) s = execXoriLong g d a i s := rfl
theorem exec_moviLong (g : Guard) (d : Reg) (i : BitVec 32) (s : State) :
    exec (.moviLong g d i) s = execMoviLong g d i s := rfl
theorem exec_inshiLong (g : Guard) (d : Reg) (i : BitVec 32) (s : State) :
    exec (.inshiLong g d i) s = execInshiLong g d i s := rfl
theorem exec_muliLong (g : Guard) (d a : Reg) (i : BitVec 32) (s : State) :
    exec (.muliLong g d a i) s = execMuliLong g d a i s := rfl
theorem exec_shli (g : Guard) (d a : Reg) (n : BitVec 6) (s : State) :
    exec (.shli g d a n) s = execShli g d a n s := rfl
theorem exec_shri (g : Guard) (d a : Reg) (n : BitVec 6) (s : State) :
    exec (.shri g d a n) s = execShri g d a n s := rfl
theorem exec_sari (g : Guard) (d a : Reg) (n : BitVec 6) (s : State) :
    exec (.sari g d a n) s = execSari g d a n s := rfl
theorem exec_rori (g : Guard) (d a : Reg) (n : BitVec 6) (s : State) :
    exec (.rori g d a n) s = execRori g d a n s := rfl
theorem exec_cmp (g : Guard) (e : BitVec 3) (a b : Reg) (w : BitVec 1) (c : BitVec 4) (s : State) :
    exec (.cmp g e a b w c) s = execCmp g e a b w c s := rfl
theorem exec_cmpi (g : Guard) (e : BitVec 3) (a : Reg) (c : BitVec 4) (i : BitVec 10) (s : State) :
    exec (.cmpi g e a c i) s = execCmpi g e a c i s := rfl
theorem exec_pand (g : Guard) (e f h : BitVec 3) (s : State) : exec (.pand g e f h) s = execPand g e f h s := rfl
theorem exec_por (g : Guard) (e f h : BitVec 3) (s : State) : exec (.por g e f h) s = execPor g e f h s := rfl
theorem exec_pxor (g : Guard) (e f h : BitVec 3) (s : State) : exec (.pxor g e f h) s = execPxor g e f h s := rfl
theorem exec_pandn (g : Guard) (e f h : BitVec 3) (s : State) : exec (.pandn g e f h) s = execPandn g e f h s := rfl
theorem exec_pnot (g : Guard) (e f : BitVec 3) (s : State) : exec (.pnot g e f) s = execPnot g e f s := rfl
theorem exec_rdp (g : Guard) (d : Reg) (s : State) : exec (.rdp g d) s = execRdp g d s := rfl
theorem exec_wrp (g : Guard) (a : Reg) (s : State) : exec (.wrp g a) s = execWrp g a s := rfl
theorem exec_fcmp (g : Guard) (e : BitVec 3) (a b : Reg) (t : BitVec 1) (c : BitVec 3) (s : State) :
    exec (.fcmp g e a b t c) s = execFcmp g e a b t c s := rfl
theorem exec_faddF64 (g : Guard) (d a b : Reg) (r : BitVec 2) (s : State) :
    exec (.faddF64 g d a b r) s = execFaddF64 g d a b r s := rfl
theorem exec_fsubF64 (g : Guard) (d a b : Reg) (r : BitVec 2) (s : State) :
    exec (.fsubF64 g d a b r) s = execFsubF64 g d a b r s := rfl
theorem exec_fmulF64 (g : Guard) (d a b : Reg) (r : BitVec 2) (s : State) :
    exec (.fmulF64 g d a b r) s = execFmulF64 g d a b r s := rfl
theorem exec_fdivF64 (g : Guard) (d a b : Reg) (r : BitVec 2) (s : State) :
    exec (.fdivF64 g d a b r) s = execFdivF64 g d a b r s := rfl
theorem exec_fsqrtF64 (g : Guard) (d a : Reg) (r : BitVec 2) (s : State) :
    exec (.fsqrtF64 g d a r) s = execFsqrtF64 g d a r s := rfl
theorem exec_fmaF64 (g : Guard) (d a b : Reg) (r : BitVec 2) (s : State) :
    exec (.fmaF64 g d a b r) s = execFmaF64 g d a b r s := rfl
theorem exec_fminF64 (g : Guard) (d a b : Reg) (s : State) : exec (.fminF64 g d a b) s = execFminF64 g d a b s := rfl
theorem exec_fmaxF64 (g : Guard) (d a b : Reg) (s : State) : exec (.fmaxF64 g d a b) s = execFmaxF64 g d a b s := rfl
theorem exec_fabsF64 (g : Guard) (d a : Reg) (s : State) : exec (.fabsF64 g d a) s = execFabsF64 g d a s := rfl
theorem exec_fnegF64 (g : Guard) (d a : Reg) (s : State) : exec (.fnegF64 g d a) s = execFnegF64 g d a s := rfl
theorem exec_faddF32 (g : Guard) (d a b : Reg) (r : BitVec 2) (s : State) :
    exec (.faddF32 g d a b r) s = execFaddF32 g d a b r s := rfl
theorem exec_fsubF32 (g : Guard) (d a b : Reg) (r : BitVec 2) (s : State) :
    exec (.fsubF32 g d a b r) s = execFsubF32 g d a b r s := rfl
theorem exec_fmulF32 (g : Guard) (d a b : Reg) (r : BitVec 2) (s : State) :
    exec (.fmulF32 g d a b r) s = execFmulF32 g d a b r s := rfl
theorem exec_fdivF32 (g : Guard) (d a b : Reg) (r : BitVec 2) (s : State) :
    exec (.fdivF32 g d a b r) s = execFdivF32 g d a b r s := rfl
theorem exec_fsqrtF32 (g : Guard) (d a : Reg) (r : BitVec 2) (s : State) :
    exec (.fsqrtF32 g d a r) s = execFsqrtF32 g d a r s := rfl
theorem exec_fmaF32 (g : Guard) (d a b : Reg) (r : BitVec 2) (s : State) :
    exec (.fmaF32 g d a b r) s = execFmaF32 g d a b r s := rfl
theorem exec_fminF32 (g : Guard) (d a b : Reg) (s : State) : exec (.fminF32 g d a b) s = execFminF32 g d a b s := rfl
theorem exec_fmaxF32 (g : Guard) (d a b : Reg) (s : State) : exec (.fmaxF32 g d a b) s = execFmaxF32 g d a b s := rfl
theorem exec_fabsF32 (g : Guard) (d a : Reg) (s : State) : exec (.fabsF32 g d a) s = execFabsF32 g d a s := rfl
theorem exec_fnegF32 (g : Guard) (d a : Reg) (s : State) : exec (.fnegF32 g d a) s = execFnegF32 g d a s := rfl
theorem exec_cvt (g : Guard) (d a : Reg) (r : BitVec 2) (u t : BitVec 4) (s : State) :
    exec (.cvt g d a r u t) s = execCvt g d a r u t s := rfl
theorem exec_lnadd (g : Guard) (d a b : Reg) (t : BitVec 4) (s : State) :
    exec (.lnadd g d a b t) s = execLnadd g d a b t s := rfl
theorem exec_lnsub (g : Guard) (d a b : Reg) (t : BitVec 4) (s : State) :
    exec (.lnsub g d a b t) s = execLnsub g d a b t s := rfl
theorem exec_lnmul (g : Guard) (d a b : Reg) (t : BitVec 4) (s : State) :
    exec (.lnmul g d a b t) s = execLnmul g d a b t s := rfl
theorem exec_lnmin (g : Guard) (d a b : Reg) (t : BitVec 4) (s : State) :
    exec (.lnmin g d a b t) s = execLnmin g d a b t s := rfl
theorem exec_lnmax (g : Guard) (d a b : Reg) (t : BitVec 4) (s : State) :
    exec (.lnmax g d a b t) s = execLnmax g d a b t s := rfl
theorem exec_lnand (g : Guard) (d a b : Reg) (t : BitVec 4) (s : State) :
    exec (.lnand g d a b t) s = execLnand g d a b t s := rfl
theorem exec_lnor (g : Guard) (d a b : Reg) (t : BitVec 4) (s : State) :
    exec (.lnor g d a b t) s = execLnor g d a b t s := rfl
theorem exec_lnxor (g : Guard) (d a b : Reg) (t : BitVec 4) (s : State) :
    exec (.lnxor g d a b t) s = execLnxor g d a b t s := rfl
theorem exec_lnfma (g : Guard) (d a b : Reg) (t : BitVec 4) (s : State) :
    exec (.lnfma g d a b t) s = execLnfma g d a b t s := rfl
theorem exec_lncpy (g : Guard) (d a : Reg) (t : BitVec 4) (s : State) :
    exec (.lncpy g d a t) s = execLncpy g d a t s := rfl
theorem exec_lnsum (g : Guard) (d a : Reg) (t : BitVec 4) (s : State) :
    exec (.lnsum g d a t) s = execLnsum g d a t s := rfl
theorem exec_lndot (g : Guard) (d a b : Reg) (t : BitVec 4) (s : State) :
    exec (.lndot g d a b t) s = execLndot g d a b t s := rfl
theorem exec_br (g : Guard) (h : BitVec 2) (d : BitVec 20) (s : State) : exec (.br g h d) s = execBr g h d s := rfl
theorem exec_call (g : Guard) (d : BitVec 20) (s : State) : exec (.call g d) s = execCall g d s := rfl
theorem exec_ret (g : Guard) (s : State) : exec (.ret g) s = execRet g s := rfl
theorem exec_jmpi (g : Guard) (a : Reg) (s : State) : exec (.jmpi g a) s = execJmpi g a s := rfl
theorem exec_calli (g : Guard) (a : Reg) (s : State) : exec (.calli g a) s = execCalli g a s := rfl
theorem exec_follow (g : Guard) (a : Reg) (s : State) : exec (.follow g a) s = execFollow g a s := rfl
theorem exec_detach (g : Guard) (s : State) : exec (.detach g) s = execDetach g s := rfl
theorem exec_rejoin (g : Guard) (s : State) : exec (.rejoin g) s = execRejoin g s := rfl
theorem exec_waitcPcc (g : Guard) (a : Reg) (k : BitVec 3) (s : State) :
    exec (.waitcPcc g a k) s = execWaitcPcc g a k s := rfl
theorem exec_waitcWcc (g : Guard) (a : Reg) (s : State) : exec (.waitcWcc g a) s = execWaitcWcc g a s := rfl
theorem exec_rdcycPcc (g : Guard) (d : Reg) (k : BitVec 3) (s : State) :
    exec (.rdcycPcc g d k) s = execRdcycPcc g d k s := rfl
theorem exec_rdcycWcc (g : Guard) (d : Reg) (s : State) : exec (.rdcycWcc g d) s = execRdcycWcc g d s := rfl
theorem exec_halt (g : Guard) (s : State) : exec (.halt g) s = execHalt g s := rfl
theorem exec_haltRetain (g : Guard) (a : Reg) (s : State) : exec (.haltRetain g a) s = execHaltRetain g a s := rfl
theorem exec_yield (g : Guard) (s : State) : exec (.yield g) s = execYield g s := rfl
theorem exec_ld (g : Guard) (d a : Reg) (z : BitVec 2) (x i : BitVec 1) (o : BitVec 10) (s : State) :
    exec (.ld g d a z x i o) s = execLd g d a z x i o s := rfl
theorem exec_st (g : Guard) (d a : Reg) (z : BitVec 2) (i : BitVec 1) (o : BitVec 10) (s : State) :
    exec (.st g d a z i o) s = execSt g d a z i o s := rfl
theorem exec_ldAcq (g : Guard) (d a : Reg) (z : BitVec 2) (x : BitVec 1) (u : BitVec 4) (s : State) :
    exec (.ldAcq g d a z x u) s = execLdAcq g d a z x u s := rfl
theorem exec_stRel (g : Guard) (d a : Reg) (z : BitVec 2) (u : BitVec 4) (s : State) :
    exec (.stRel g d a z u) s = execStRel g d a z u s := rfl
theorem exec_mark (g : Guard) (s : State) : exec (.mark g) s = execMark g s := rfl
theorem exec_fence (g : Guard) (a : Reg) (s : State) : exec (.fence g a) s = execFence g a s := rfl
theorem exec_drainPool (g : Guard) (s : State) : exec (.drainPool g) s = execDrainPool g s := rfl
theorem exec_drainCluster (g : Guard) (s : State) : exec (.drainCluster g) s = execDrainCluster g s := rfl
theorem exec_drainHbm (g : Guard) (s : State) : exec (.drainHbm g) s = execDrainHbm g s := rfl
theorem exec_drainTier (g : Guard) (s : State) : exec (.drainTier g) s = execDrainTier g s := rfl
theorem exec_cwb (g : Guard) (a : Reg) (s : State) : exec (.cwb g a) s = execCwb g a s := rfl
theorem exec_cinv (g : Guard) (a : Reg) (s : State) : exec (.cinv g a) s = execCinv g a s := rfl
theorem exec_cflush (g : Guard) (a : Reg) (s : State) : exec (.cflush g a) s = execCflush g a s := rfl
theorem exec_cwbr (g : Guard) (a b : Reg) (s : State) : exec (.cwbr g a b) s = execCwbr g a b s := rfl
theorem exec_cinvr (g : Guard) (a b : Reg) (s : State) : exec (.cinvr g a b) s = execCinvr g a b s := rfl
theorem exec_cflushr (g : Guard) (a b : Reg) (s : State) : exec (.cflushr g a b) s = execCflushr g a b s := rfl
theorem exec_l1inv (g : Guard) (s : State) : exec (.l1inv g) s = execL1inv g s := rfl
theorem exec_faa (g : Guard) (d a b : Reg) (l : BitVec 3) (o : BitVec 2) (z : BitVec 1) (s : State) :
    exec (.faa g d a b l o z) s = execFaa g d a b l o z s := rfl
theorem exec_cas (g : Guard) (d a b : Reg) (l : BitVec 3) (f : BitVec 1) (o : BitVec 2) (z : BitVec 1) (s : State) :
    exec (.cas g d a b l f o z) s = execCas g d a b l f o z s := rfl
theorem exec_swp (g : Guard) (d a b : Reg) (l : BitVec 3) (o : BitVec 2) (z : BitVec 1) (s : State) :
    exec (.swp g d a b l o z) s = execSwp g d a b l o z s := rfl
theorem exec_atomicAnd (g : Guard) (d a b : Reg) (l : BitVec 3) (o : BitVec 2) (z : BitVec 1) (s : State) :
    exec (.atomicAnd g d a b l o z) s = execAtomicAnd g d a b l o z s := rfl
theorem exec_atomicOr (g : Guard) (d a b : Reg) (l : BitVec 3) (o : BitVec 2) (z : BitVec 1) (s : State) :
    exec (.atomicOr g d a b l o z) s = execAtomicOr g d a b l o z s := rfl
theorem exec_atomicXor (g : Guard) (d a b : Reg) (l : BitVec 3) (o : BitVec 2) (z : BitVec 1) (s : State) :
    exec (.atomicXor g d a b l o z) s = execAtomicXor g d a b l o z s := rfl
theorem exec_atomicMinI (g : Guard) (d a b : Reg) (l : BitVec 3) (o : BitVec 2) (z : BitVec 1) (s : State) :
    exec (.atomicMinI g d a b l o z) s = execAtomicMinI g d a b l o z s := rfl
theorem exec_atomicMaxI (g : Guard) (d a b : Reg) (l : BitVec 3) (o : BitVec 2) (z : BitVec 1) (s : State) :
    exec (.atomicMaxI g d a b l o z) s = execAtomicMaxI g d a b l o z s := rfl
theorem exec_atomicMinN (g : Guard) (d a b : Reg) (l : BitVec 3) (o : BitVec 2) (z : BitVec 1) (s : State) :
    exec (.atomicMinN g d a b l o z) s = execAtomicMinN g d a b l o z s := rfl
theorem exec_atomicMaxN (g : Guard) (d a b : Reg) (l : BitVec 3) (o : BitVec 2) (z : BitVec 1) (s : State) :
    exec (.atomicMaxN g d a b l o z) s = execAtomicMaxN g d a b l o z s := rfl
theorem exec_fadda (g : Guard) (d a b : Reg) (l : BitVec 3) (o : BitVec 2) (z : BitVec 1) (s : State) :
    exec (.fadda g d a b l o z) s = execFadda g d a b l o z s := rfl
theorem exec_redc (g : Guard) (a b : Reg) (l : BitVec 3) (o : BitVec 2) (z : BitVec 1) (s : State) :
    exec (.redc g a b l o z) s = execRedc g a b l o z s := rfl
theorem exec_spawnu (g : Guard) (a b : Reg) (k : BitVec 4) (s : State) :
    exec (.spawnu g a b k) s = execSpawnu g a b k s := rfl
theorem exec_mig (g : Guard) (a : Reg) (s : State) : exec (.mig g a) s = execMig g a s := rfl
theorem exec_home (g : Guard) (s : State) : exec (.home g) s = execHome g s := rfl
theorem exec_send (g : Guard) (a b : Reg) (n : BitVec 4) (s : State) :
    exec (.send g a b n) s = execSend g a b n s := rfl
theorem exec_mcast (g : Guard) (a b : Reg) (n : BitVec 4) (s : State) :
    exec (.mcast g a b n) s = execMcast g a b n s := rfl
theorem exec_recv (g : Guard) (c : BitVec 3) (s : State) : exec (.recv g c) s = execRecv g c s := rfl
theorem exec_bind (g : Guard) (d : Reg) (c : BitVec 3) (s : State) : exec (.bind g d c) s = execBind g d c s := rfl
theorem exec_spawn (g : Guard) (a : Reg) (s : State) : exec (.spawn g a) s = execSpawn g a s := rfl
theorem exec_join (g : Guard) (a : Reg) (s : State) : exec (.join g a) s = execJoin g a s := rfl
theorem exec_taskend (g : Guard) (s : State) : exec (.taskend g) s = execTaskend g s := rfl
theorem exec_epushCopy (g : Guard) (a : Reg) (s : State) : exec (.epushCopy g a) s = execEpushCopy g a s := rfl
theorem exec_epushGather (g : Guard) (a : Reg) (s : State) : exec (.epushGather g a) s = execEpushGather g a s := rfl
theorem exec_epushColl (g : Guard) (a : Reg) (s : State) : exec (.epushColl g a) s = execEpushColl g a s := rfl
theorem exec_epopCopy (g : Guard) (d : Reg) (s : State) : exec (.epopCopy g d) s = execEpopCopy g d s := rfl
theorem exec_epopGather (g : Guard) (d : Reg) (s : State) : exec (.epopGather g d) s = execEpopGather g d s := rfl
theorem exec_epopColl (g : Guard) (d : Reg) (s : State) : exec (.epopColl g d) s = execEpopColl g d s := rfl
theorem exec_post (g : Guard) (a b : Reg) (s : State) : exec (.post g a b) s = execPost g a b s := rfl
theorem exec_job (g : Guard) (d : Reg) (k : BitVec 3) (s : State) : exec (.job g d k) s = execJob g d k s := rfl
theorem exec_jobRel (g : Guard) (d : Reg) (k : BitVec 3) (s : State) :
    exec (.jobRel g d k) s = execJobRel g d k s := rfl
theorem exec_salloc (g : Guard) (d a b : Reg) (s : State) : exec (.salloc g d a b) s = execSalloc g d a b s := rfl
theorem exec_sallocMir (g : Guard) (d a b : Reg) (s : State) :
    exec (.sallocMir g d a b) s = execSallocMir g d a b s := rfl
theorem exec_sfree (g : Guard) (a : Reg) (s : State) : exec (.sfree g a) s = execSfree g a s := rfl
theorem exec_sinfoSize (g : Guard) (d a : Reg) (s : State) : exec (.sinfoSize g d a) s = execSinfoSize g d a s := rfl
theorem exec_sinfoHealth (g : Guard) (d a : Reg) (s : State) :
    exec (.sinfoHealth g d a) s = execSinfoHealth g d a s := rfl
theorem exec_sinfoQuota (g : Guard) (d a : Reg) (s : State) : exec (.sinfoQuota g d a) s = execSinfoQuota g d a s := rfl
theorem exec_sinfoInc (g : Guard) (d a : Reg) (s : State) : exec (.sinfoInc g d a) s = execSinfoInc g d a s := rfl
theorem exec_dotm (g : Guard) (d a : Reg) (t : BitVec 2) (s : State) :
    exec (.dotm g d a t) s = execDotm g d a t s := rfl
theorem exec_eret (g : Guard) (s : State) : exec (.eret g) s = execEret g s := rfl
theorem exec_xinv (g : Guard) (a b : Reg) (s : State) : exec (.xinv g a b) s = execXinv g a b s := rfl
theorem exec_snap (g : Guard) (s : State) : exec (.snap g) s = execSnap g s := rfl
theorem exec_bkpt (g : Guard) (s : State) : exec (.bkpt g) s = execBkpt g s := rfl
theorem exec_trap (g : Guard) (n : BitVec 8) (s : State) : exec (.trap g n) s = execTrap g n s := rfl
theorem exec_sysr (g : Guard) (d : Reg) (r : BitVec 10) (s : State) : exec (.sysr g d r) s = execSysr g d r s := rfl
theorem exec_sysw (g : Guard) (a : Reg) (r : BitVec 10) (s : State) : exec (.sysw g a r) s = execSysw g a r s := rfl
theorem exec_syswWp (g : Guard) (a : Reg) (s : State) : exec (.syswWp g a) s = execSyswWp g a s := rfl
theorem exec_syswSpace (g : Guard) (a : Reg) (s : State) : exec (.syswSpace g a) s = execSyswSpace g a s := rfl
theorem exec_syswBndW (g : Guard) (a : Reg) (s : State) : exec (.syswBndW g a) s = execSyswBndW g a s := rfl
theorem exec_syswBndS (g : Guard) (a : Reg) (s : State) : exec (.syswBndS g a) s = execSyswBndS g a s := rfl
theorem exec_syswBndL (g : Guard) (a : Reg) (s : State) : exec (.syswBndL g a) s = execSyswBndL g a s := rfl
theorem exec_syswWin (g : Guard) (a : Reg) (w : BitVec 2) (s : State) :
    exec (.syswWin g a w) s = execSyswWin g a w s := rfl
theorem exec_syswHmask (g : Guard) (a : Reg) (h : BitVec 3) (s : State) :
    exec (.syswHmask g a h) s = execSyswHmask g a h s := rfl
theorem exec_syswSlotmap (g : Guard) (a : Reg) (s : State) : exec (.syswSlotmap g a) s = execSyswSlotmap g a s := rfl
theorem exec_syswDomtabB (g : Guard) (a : Reg) (k : BitVec 4) (s : State) :
    exec (.syswDomtabB g a k) s = execSyswDomtabB g a k s := rfl
theorem exec_syswDomtabL (g : Guard) (a : Reg) (k : BitVec 4) (s : State) :
    exec (.syswDomtabL g a k) s = execSyswDomtabL g a k s := rfl
theorem exec_lit (v : BitVec 15) (s : State) : exec (.lit v) s = execLit v s := rfl
theorem exec_ext (v : BitVec 14) (s : State) : exec (.ext v) s = execExt v s := rfl
theorem exec_shls (k : BitVec 2) (n : BitVec 6) (s : State) : exec (.shls k n) s = execShls k n s := rfl
theorem exec_setf (n : BitVec 8) (s : State) : exec (.setf n) s = execSetf n s := rfl
theorem exec_take (e : BitVec 3) (s : State) : exec (.take e) s = execTake e s := rfl
theorem exec_await (n : BitVec 4) (s : State) : exec (.await n) s = execAwait n s := rfl
theorem exec_ldw (n : BitVec 4) (s : State) : exec (.ldw n) s = execLdw n s := rfl
theorem exec_lda (n : BitVec 4) (s : State) : exec (.lda n) s = execLda n s := rfl
theorem exec_lds (n : BitVec 4) (s : State) : exec (.lds n) s = execLds n s := rfl
theorem exec_pfw (f : BitVec 1) (s : State) : exec (.pfw f) s = execPfw f s := rfl
theorem exec_pfa (f : BitVec 1) (s : State) : exec (.pfa f) s = execPfa f s := rfl
theorem exec_tfw (n : BitVec 4) (s : State) : exec (.tfw n) s = execTfw n s := rfl
theorem exec_tfa (n : BitVec 4) (s : State) : exec (.tfa n) s = execTfa n s := rfl
theorem exec_gta (n : BitVec 4) (s : State) : exec (.gta n) s = execGta n s := rfl
theorem exec_mma (u : BitVec 5) (r w a : BitVec 1) (s : State) : exec (.mma u r w a) s = execMma u r w a s := rfl
theorem exec_mmaz (u : BitVec 5) (r w a : BitVec 1) (s : State) : exec (.mmaz u r w a) s = execMmaz u r w a s := rfl
theorem exec_dwa (u : BitVec 5) (s : State) : exec (.dwa u) s = execDwa u s := rfl
theorem exec_dwaz (u : BitVec 5) (s : State) : exec (.dwaz u) s = execDwaz u s := rfl
theorem exec_vadd (u : BitVec 5) (s : State) : exec (.vadd u) s = execVadd u s := rfl
theorem exec_vsub (u : BitVec 5) (s : State) : exec (.vsub u) s = execVsub u s := rfl
theorem exec_vmul (u : BitVec 5) (s : State) : exec (.vmul u) s = execVmul u s := rfl
theorem exec_vfma (u : BitVec 5) (s : State) : exec (.vfma u) s = execVfma u s := rfl
theorem exec_vmax (u : BitVec 5) (s : State) : exec (.vmax u) s = execVmax u s := rfl
theorem exec_vmin (u : BitVec 5) (s : State) : exec (.vmin u) s = execVmin u s := rfl
theorem exec_vabs (u : BitVec 5) (s : State) : exec (.vabs u) s = execVabs u s := rfl
theorem exec_vexp (u : BitVec 5) (s : State) : exec (.vexp u) s = execVexp u s := rfl
theorem exec_vrcp (u : BitVec 5) (s : State) : exec (.vrcp u) s = execVrcp u s := rfl
theorem exec_vrsq (u : BitVec 5) (s : State) : exec (.vrsq u) s = execVrsq u s := rfl
theorem exec_vsel (u : BitVec 5) (s : State) : exec (.vsel u) s = execVsel u s := rfl
theorem exec_vcmp (u : BitVec 5) (c : BitVec 3) (s : State) : exec (.vcmp u c) s = execVcmp u c s := rfl
theorem exec_vred (u : BitVec 5) (o : BitVec 3) (s : State) : exec (.vred u o) s = execVred u o s := rfl
theorem exec_vcvt (d : BitVec 5) (u : BitVec 3) (s : State) : exec (.vcvt d u) s = execVcvt d u s := rfl
theorem exec_vres (u : BitVec 5) (i : BitVec 1) (s : State) : exec (.vres u i) s = execVres u i s := rfl
theorem exec_vcmpu (u : BitVec 5) (c : BitVec 3) (s : State) : exec (.vcmpu u c) s = execVcmpu u c s := rfl
theorem exec_vrq (u : BitVec 5) (i : BitVec 1) (s : State) : exec (.vrq u i) s = execVrq u i s := rfl
theorem exec_vmov (u : BitVec 5) (s : State) : exec (.vmov u) s = execVmov u s := rfl
theorem exec_cprs (u : BitVec 5) (i : BitVec 1) (s : State) : exec (.cprs u i) s = execCprs u i s := rfl
theorem exec_cprh (u : BitVec 5) (i : BitVec 1) (s : State) : exec (.cprh u i) s = execCprh u i s := rfl
theorem exec_topr (u : BitVec 5) (s : State) : exec (.topr u) s = execTopr u s := rfl
theorem exec_topc (u : BitVec 5) (s : State) : exec (.topc u) s = execTopc u s := rfl
theorem exec_fillc (n : BitVec 4) (s : State) : exec (.fillc n) s = execFillc n s := rfl
theorem exec_dup (s : State) : exec (.dup) s = execDup s := rfl
theorem exec_drop (s : State) : exec (.drop) s = execDrop s := rfl
theorem exec_swap (s : State) : exec (.swap) s = execSwap s := rfl
theorem exec_over (s : State) : exec (.over) s = execOver s := rfl
theorem exec_adds (s : State) : exec (.adds) s = execAdds s := rfl
theorem exec_subs (s : State) : exec (.subs) s = execSubs s := rfl
theorem exec_atW (s : State) : exec (.atW) s = execAtW s := rfl
theorem exec_dt (s : State) : exec (.dt) s = execDt s := rfl
theorem exec_rdv (s : State) : exec (.rdv) s = execRdv s := rfl
theorem exec_loopW (s : State) : exec (.loopW) s = execLoopW s := rfl
theorem exec_loopReg (s : State) : exec (.loopReg) s = execLoopReg s := rfl
theorem exec_endl (s : State) : exec (.endl) s = execEndl s := rfl
theorem exec_ppt (s : State) : exec (.ppt) s = execPpt s := rfl
theorem exec_haltj (s : State) : exec (.haltj) s = execHaltj s := rfl
theorem exec_nopw (s : State) : exec (.nopw) s = execNopw s := rfl
theorem exec_fmt (s : State) : exec (.fmt) s = execFmt s := rfl
theorem exec_ctab (s : State) : exec (.ctab) s = execCtab s := rfl
theorem exec_tsclW (s : State) : exec (.tsclW) s = execTsclW s := rfl
theorem exec_tsclA (s : State) : exec (.tsclA) s = execTsclA s := rfl
theorem exec_oasis (s : State) : exec (.oasis) s = execOasis s := rfl
theorem exec_segt (s : State) : exec (.segt) s = execSegt s := rfl
theorem exec_manc (s : State) : exec (.manc) s = execManc s := rfl
theorem exec_mancOff (s : State) : exec (.mancOff) s = execMancOff s := rfl
theorem exec_selk (s : State) : exec (.selk) s = execSelk s := rfl
theorem exec_shape (s : State) : exec (.shape) s = execShape s := rfl
theorem exec_rdpcc (s : State) : exec (.rdpcc) s = execRdpcc s := rfl
theorem exec_cpaa (s : State) : exec (.cpaa) s = execCpaa s := rfl
theorem exec_cpah (s : State) : exec (.cpah) s = execCpah s := rfl
theorem exec_spill (s : State) : exec (.spill) s = execSpill s := rfl
theorem exec_jobAccept (s : State) : exec (.jobAccept) s = execJobAccept s := rfl
theorem exec_decodeStart (s : State) : exec (.decodeStart) s = execDecodeStart s := rfl
theorem exec_oasisClose (s : State) : exec (.oasisClose) s = execOasisClose s := rfl
theorem exec_postArrival (s : State) : exec (.postArrival) s = execPostArrival s := rfl
theorem exec_postAck (s : State) : exec (.postAck) s = execPostAck s := rfl
theorem exec_holdOnset (s : State) : exec (.holdOnset) s = execHoldOnset s := rfl
theorem exec_haboobEnd (s : State) : exec (.haboobEnd) s = execHaboobEnd s := rfl
theorem exec_segmentRedirect (s : State) : exec (.segmentRedirect) s = execSegmentRedirect s := rfl
theorem exec_maxgapExpiry (s : State) : exec (.maxgapExpiry) s = execMaxgapExpiry s := rfl
theorem exec_loadDeadline (s : State) : exec (.loadDeadline) s = execLoadDeadline s := rfl
theorem exec_loadLanding (s : State) : exec (.loadLanding) s = execLoadLanding s := rfl
theorem exec_tileRowComplete (s : State) : exec (.tileRowComplete) s = execTileRowComplete s := rfl
theorem exec_vxeStepComplete (s : State) : exec (.vxeStepComplete) s = execVxeStepComplete s := rfl
theorem exec_cpeWritePerformed (s : State) : exec (.cpeWritePerformed) s = execCpeWritePerformed s := rfl
theorem exec_milestoneStore (s : State) : exec (.milestoneStore) s = execMilestoneStore s := rfl
theorem exec_jobComplete (s : State) : exec (.jobComplete) s = execJobComplete s := rfl
theorem exec_jobFaultRecord (s : State) : exec (.jobFaultRecord) s = execJobFaultRecord s := rfl
theorem exec_bankClearEnd (s : State) : exec (.bankClearEnd) s = execBankClearEnd s := rfl
theorem exec_bankWriteOutEnd (s : State) : exec (.bankWriteOutEnd) s = execBankWriteOutEnd s := rfl
theorem exec_bankFillEnd (s : State) : exec (.bankFillEnd) s = execBankFillEnd s := rfl
theorem exec_victimStop (s : State) : exec (.victimStop) s = execVictimStop s := rfl
theorem exec_displacementTimeout (s : State) : exec (.displacementTimeout) s = execDisplacementTimeout s := rfl
theorem exec_jobResume (s : State) : exec (.jobResume) s = execJobResume s := rfl
theorem exec_oasisAccessArrival (s : State) : exec (.oasisAccessArrival) s = execOasisAccessArrival s := rfl
theorem exec_oasisStoreBufferDrain (s : State) : exec (.oasisStoreBufferDrain) s = execOasisStoreBufferDrain s := rfl
theorem exec_partitionForm (s : State) : exec (.partitionForm) s = execPartitionForm s := rfl
theorem exec_partitionDissolve (s : State) : exec (.partitionDissolve) s = execPartitionDissolve s := rfl
theorem exec_alignPartitions (s : State) : exec (.alignPartitions) s = execAlignPartitions s := rfl
theorem exec_slotmapTakeEffect (s : State) : exec (.slotmapTakeEffect) s = execSlotmapTakeEffect s := rfl
theorem exec_packetFetch (s : State) : exec (.packetFetch) s = execPacketFetch s := rfl
theorem exec_packetRefetch (s : State) : exec (.packetRefetch) s = execPacketRefetch s := rfl
theorem exec_packetLaunch (s : State) : exec (.packetLaunch) s = execPacketLaunch s := rfl
theorem exec_launchPlacement (s : State) : exec (.launchPlacement) s = execLaunchPlacement s := rfl
theorem exec_packetGraph (s : State) : exec (.packetGraph) s = execPacketGraph s := rfl
theorem exec_packetCopy (s : State) : exec (.packetCopy) s = execPacketCopy s := rfl
theorem exec_packetWait (s : State) : exec (.packetWait) s = execPacketWait s := rfl
theorem exec_packetSignal (s : State) : exec (.packetSignal) s = execPacketSignal s := rfl
theorem exec_packetFence (s : State) : exec (.packetFence) s = execPacketFence s := rfl
theorem exec_interruptSend (s : State) : exec (.interruptSend) s = execInterruptSend s := rfl
theorem exec_graphNodeStart (s : State) : exec (.graphNodeStart) s = execGraphNodeStart s := rfl
theorem exec_waitNodePoll (s : State) : exec (.waitNodePoll) s = execWaitNodePoll s := rfl
theorem exec_copyNodeDone (s : State) : exec (.copyNodeDone) s = execCopyNodeDone s := rfl
theorem exec_signalNodeDone (s : State) : exec (.signalNodeDone) s = execSignalNodeDone s := rfl
theorem exec_localStart (s : State) : exec (.localStart) s = execLocalStart s := rfl
theorem exec_stealProbe (s : State) : exec (.stealProbe) s = execStealProbe s := rfl
theorem exec_stealProbeComplete (s : State) : exec (.stealProbeComplete) s = execStealProbeComplete s := rfl
theorem exec_caravanAdmission (s : State) : exec (.caravanAdmission) s = execCaravanAdmission s := rfl
theorem exec_caravanReturnHome (s : State) : exec (.caravanReturnHome) s = execCaravanReturnHome s := rfl
theorem exec_caravanLost (s : State) : exec (.caravanLost) s = execCaravanLost s := rfl
theorem exec_messageArrival (s : State) : exec (.messageArrival) s = execMessageArrival s := rfl
theorem exec_messageDeposit (s : State) : exec (.messageDeposit) s = execMessageDeposit s := rfl
theorem exec_sendReply (s : State) : exec (.sendReply) s = execSendReply s := rfl
theorem exec_mcastAck (s : State) : exec (.mcastAck) s = execMcastAck s := rfl
theorem exec_remoteUpdateApply (s : State) : exec (.remoteUpdateApply) s = execRemoteUpdateApply s := rfl
theorem exec_waitcWake (s : State) : exec (.waitcWake) s = execWaitcWake s := rfl
theorem exec_joinRelease (s : State) : exec (.joinRelease) s = execJoinRelease s := rfl
theorem exec_threadLoadReply (s : State) : exec (.threadLoadReply) s = execThreadLoadReply s := rfl
theorem exec_storePerformed (s : State) : exec (.storePerformed) s = execStorePerformed s := rfl
theorem exec_atomicReply (s : State) : exec (.atomicReply) s = execAtomicReply s := rfl
theorem exec_windowStoreAck (s : State) : exec (.windowStoreAck) s = execWindowStoreAck s := rfl
theorem exec_translationWalk (s : State) : exec (.translationWalk) s = execTranslationWalk s := rfl
theorem exec_sharedUnitGrant (s : State) : exec (.sharedUnitGrant) s = execSharedUnitGrant s := rfl
theorem exec_maintenanceWalkDone (s : State) : exec (.maintenanceWalkDone) s = execMaintenanceWalkDone s := rfl
theorem exec_drainComplete (s : State) : exec (.drainComplete) s = execDrainComplete s := rfl
theorem exec_xinvComplete (s : State) : exec (.xinvComplete) s = execXinvComplete s := rfl
theorem exec_sallocReply (s : State) : exec (.sallocReply) s = execSallocReply s := rfl
theorem exec_sfreeReply (s : State) : exec (.sfreeReply) s = execSfreeReply s := rfl
theorem exec_dotmComplete (s : State) : exec (.dotmComplete) s = execDotmComplete s := rfl
theorem exec_engineCommandStart (s : State) : exec (.engineCommandStart) s = execEngineCommandStart s := rfl
theorem exec_copyCommandComplete (s : State) : exec (.copyCommandComplete) s = execCopyCommandComplete s := rfl
theorem exec_gatherElementPush (s : State) : exec (.gatherElementPush) s = execGatherElementPush s := rfl
theorem exec_collectiveComplete (s : State) : exec (.collectiveComplete) s = execCollectiveComplete s := rfl
theorem exec_terminationWave (s : State) : exec (.terminationWave) s = execTerminationWave s := rfl
theorem exec_jobDoneReport (s : State) : exec (.jobDoneReport) s = execJobDoneReport s := rfl
theorem exec_jobDeadlockReport (s : State) : exec (.jobDeadlockReport) s = execJobDeadlockReport s := rfl
theorem exec_wakeWrite (s : State) : exec (.wakeWrite) s = execWakeWrite s := rfl
theorem exec_qctlResume (s : State) : exec (.qctlResume) s = execQctlResume s := rfl
theorem exec_qctlSuspend (s : State) : exec (.qctlSuspend) s = execQctlSuspend s := rfl
theorem exec_qctlDiscard (s : State) : exec (.qctlDiscard) s = execQctlDiscard s := rfl
theorem exec_hostBar2Read (s : State) : exec (.hostBar2Read) s = execHostBar2Read s := rfl
theorem exec_hostBar2Write (s : State) : exec (.hostBar2Write) s = execHostBar2Write s := rfl
theorem exec_powerGateEntry (s : State) : exec (.powerGateEntry) s = execPowerGateEntry s := rfl
theorem exec_wakeSequenceEnd (s : State) : exec (.wakeSequenceEnd) s = execWakeSequenceEnd s := rfl
theorem exec_supplyFault (s : State) : exec (.supplyFault) s = execSupplyFault s := rfl
theorem exec_powerOnBoot (s : State) : exec (.powerOnBoot) s = execPowerOnBoot s := rfl
theorem exec_sidebandReadStatus (s : State) : exec (.sidebandReadStatus) s = execSidebandReadStatus s := rfl
theorem exec_sidebandSetPower (s : State) : exec (.sidebandSetPower) s = execSidebandSetPower s := rfl
theorem exec_sidebandNameSnapshot (s : State) : exec (.sidebandNameSnapshot) s = execSidebandNameSnapshot s := rfl
theorem exec_sidebandClearFault (s : State) : exec (.sidebandClearFault) s = execSidebandClearFault s := rfl
theorem exec_sidebandAttest (s : State) : exec (.sidebandAttest) s = execSidebandAttest s := rfl
theorem exec_snapshotCapture (s : State) : exec (.snapshotCapture) s = execSnapshotCapture s := rfl
theorem exec_firewallReload (s : State) : exec (.firewallReload) s = execFirewallReload s := rfl
theorem exec_switchLossNotice (s : State) : exec (.switchLossNotice) s = execSwitchLossNotice s := rfl
theorem exec_portLossNotice (s : State) : exec (.portLossNotice) s = execPortLossNotice s := rfl
theorem exec_switchReadmission (s : State) : exec (.switchReadmission) s = execSwitchReadmission s := rfl
theorem exec_mirrorFillDone (s : State) : exec (.mirrorFillDone) s = execMirrorFillDone s := rfl
theorem exec_flitReplay (s : State) : exec (.flitReplay) s = execFlitReplay s := rfl
theorem exec_packetStomp (s : State) : exec (.packetStomp) s = execPacketStomp s := rfl
theorem exec_linkDown (s : State) : exec (.linkDown) s = execLinkDown s := rfl
theorem exec_fabricPacketReceive (s : State) : exec (.fabricPacketReceive) s = execFabricPacketReceive s := rfl
theorem exec_controlFlit (s : State) : exec (.controlFlit) s = execControlFlit s := rfl
theorem exec_keySlotLoad (s : State) : exec (.keySlotLoad) s = execKeySlotLoad s := rfl
theorem exec_keySlotZero (s : State) : exec (.keySlotZero) s = execKeySlotZero s := rfl
theorem exec_nonceCounterWrap (s : State) : exec (.nonceCounterWrap) s = execNonceCounterWrap s := rfl
theorem exec_ueWorkRequest (s : State) : exec (.ueWorkRequest) s = execUeWorkRequest s := rfl
theorem exec_uePacketReceive (s : State) : exec (.uePacketReceive) s = execUePacketReceive s := rfl
theorem exec_interleavePending (s : State) : exec (.interleavePending) s = execInterleavePending s := rfl
theorem exec_interleaveAdopt (s : State) : exec (.interleaveAdopt) s = execInterleaveAdopt s := rfl
theorem exec_movedReplay (s : State) : exec (.movedReplay) s = execMovedReplay s := rfl
theorem exec_illegalInstruction (s : State) : exec (.illegalInstruction) s = execIllegalInstruction s := rfl
theorem exec_illegalWord (s : State) : exec (.illegalWord) s = execIllegalWord s := rfl
theorem exec_fetchFault (s : State) : exec (.fetchFault) s = execFetchFault s := rfl
theorem exec_runOff (s : State) : exec (.runOff) s = execRunOff s := rfl
theorem exec_pinnedEntryAccept (s : State) : exec (.pinnedEntryAccept) s = execPinnedEntryAccept s := rfl
theorem exec_portLossClear (s : State) : exec (.portLossClear) s = execPortLossClear s := rfl
theorem exec_linkRetrainDone (s : State) : exec (.linkRetrainDone) s = execLinkRetrainDone s := rfl
theorem exec_partitionDealign (s : State) : exec (.partitionDealign) s = execPartitionDealign s := rfl
theorem exec_snapshotWriteDone (s : State) : exec (.snapshotWriteDone) s = execSnapshotWriteDone s := rfl
theorem exec_ueRetriesExhausted (s : State) : exec (.ueRetriesExhausted) s = execUeRetriesExhausted s := rfl
theorem exec_hostLinkTraining (s : State) : exec (.hostLinkTraining) s = execHostLinkTraining s := rfl
theorem exec_quotaChange (s : State) : exec (.quotaChange) s = execQuotaChange s := rfl
theorem exec_domainFormation (s : State) : exec (.domainFormation) s = execDomainFormation s := rfl

end Sys2Proof.Machine
end

