-- ==== Sys2Proof/Laws/Memory.lean ====
section
/-! SUPPORT. The laws of memory: what a byte reads as after a write, that every operation keeps the canonical form, and what
a table holds after a change. -/

namespace Sys2Proof.Machine

/-! ## Reading back -/

@[simp] theorem Memory.get_nil (x : Nat) : Memory.get [] x = 0 := rfl

/-- A write leaves every other address alone. -/
theorem Memory.get_set_other (m : Memory) (x : Nat) (v : Byte) (y : Nat) (h : y ≠ x) :
    (m.set x v).get y = m.get y := by
  induction m with
  | nil => simp only [Memory.set]; split <;> simp [Memory.get, h]
  | cons c m ih =>
    obtain ⟨a, b⟩ := c
    simp only [Memory.set]
    split
    · split <;> simp [Memory.get, h]
    · split
      · subst_vars; split <;> simp [Memory.get, h]
      · simp only [Memory.get, ih]

/-- Below the first entry of a canonical memory every byte is the default. -/
theorem Memory.get_below (m : Memory) (lo x : Nat) (h : Memory.wfFrom lo m) (hx : x < lo) : m.get x = 0 := by
  induction m generalizing lo with
  | nil => rfl
  | cons c m ih =>
    obtain ⟨a, b⟩ := c
    simp only [Memory.wfFrom, Bool.and_eq_true, decide_eq_true_eq] at h
    have : x ≠ a := by omega
    simpa [Memory.get, this] using ih (a + 1) h.2 (by omega)

theorem Memory.get_set_same_from (m : Memory) (lo x : Nat) (v : Byte) (h : Memory.wfFrom lo m) :
    (m.set x v).get x = v := by
  induction m generalizing lo with
  | nil => simp only [Memory.set]; split <;> simp_all [Memory.get, Memory.default]
  | cons c m ih =>
    obtain ⟨a, b⟩ := c
    simp only [Memory.wfFrom, Bool.and_eq_true, decide_eq_true_eq] at h
    have low : ∀ y, y < a + 1 → Memory.get m y = 0 := fun y hy => Memory.get_below m (a + 1) y h.2 hy
    simp only [Memory.set]
    split
    · have : x ≠ a := by omega
      split <;> simp_all [Memory.get, Memory.default]
      exact low x (by omega)
    · split
      · subst_vars
        split
        · simp_all [Memory.default]
        · simp [Memory.get]
      · rename_i hn
        simpa [Memory.get, hn] using ih (a + 1) h.2

/-- A byte reads as it was written. -/
theorem Memory.get_set_same (m : Memory) (x : Nat) (v : Byte) (h : m.wf) : (m.set x v).get x = v :=
  Memory.get_set_same_from m 0 x v h

/-! ## The canonical form -/

theorem Memory.wfFrom_mono (m : Memory) (lo hi : Nat) (h : Memory.wfFrom hi m) (hl : lo ≤ hi) :
    Memory.wfFrom lo m := by
  cases m with
  | nil => rfl
  | cons c m =>
    simp only [Memory.wfFrom, Bool.and_eq_true, decide_eq_true_eq] at h ⊢
    exact ⟨⟨by omega, h.1.2⟩, h.2⟩

theorem Memory.wfFrom_set (m : Memory) (lo x : Nat) (v : Byte) (h : Memory.wfFrom lo m) (hx : lo ≤ x) :
    Memory.wfFrom lo (m.set x v) := by
  induction m generalizing lo with
  | nil => simp only [Memory.set]; split <;> simp_all [Memory.wfFrom]
  | cons c m ih =>
    obtain ⟨a, b⟩ := c
    simp only [Memory.wfFrom, Bool.and_eq_true, decide_eq_true_eq] at h
    simp only [Memory.set]
    split
    · split <;> simp_all [Memory.wfFrom]
    · split
      · split
        · exact Memory.wfFrom_mono m lo (a + 1) h.2 (by omega)
        · simp_all [Memory.wfFrom]
      · simp only [Memory.wfFrom, Bool.and_eq_true, decide_eq_true_eq]
        exact ⟨h.1, ih (a + 1) h.2 (by omega)⟩

/-- A write keeps the canonical form. -/
theorem Memory.wf_set (m : Memory) (x : Nat) (v : Byte) (h : m.wf) : (m.set x v).wf :=
  Memory.wfFrom_set m 0 x v h (Nat.zero_le x)

theorem Memory.wf_setBytes (m : Memory) (x : Nat) (vs : List Byte) (h : m.wf) : (m.setBytes x vs).wf := by
  induction vs generalizing m x with
  | nil => exact h
  | cons v vs ih => exact ih (m.set x v) (x + 1) (Memory.wf_set m x v h)

theorem Memory.wf_setNum (m : Memory) (x n v : Nat) (h : m.wf) : (m.setNum x n v).wf :=
  Memory.wf_setBytes m x (leBytes n v) h

theorem Memory.wfFrom_filter (m : Memory) (lo : Nat) (p : Host.Cell → Bool) (h : Memory.wfFrom lo m) :
    Memory.wfFrom lo (m.filter p) := by
  induction m generalizing lo with
  | nil => rfl
  | cons c m ih =>
    obtain ⟨a, b⟩ := c
    simp only [Memory.wfFrom, Bool.and_eq_true, decide_eq_true_eq] at h
    rw [List.filter_cons]
    split
    · simp only [Memory.wfFrom, Bool.and_eq_true, decide_eq_true_eq]
      exact ⟨h.1, ih (a + 1) h.2⟩
    · exact ih lo (Memory.wfFrom_mono m lo (a + 1) h.2 (by omega))

/-- Dropping entries keeps the canonical form. -/
theorem Memory.wf_filter (m : Memory) (p : Host.Cell → Bool) (h : m.wf) : Memory.wf (m.filter p) :=
  Memory.wfFrom_filter m 0 p h

theorem Memory.wf_clear (m : Memory) (x n : Nat) (h : m.wf) : (m.clear x n).wf := Memory.wf_filter m _ h

@[simp] theorem Memory.wf_nil : Memory.wf [] = true := rfl

/-! ## Several bytes -/

/-- Writing bytes leaves every address outside them alone. -/
theorem Memory.get_setBytes_other (m : Memory) (x : Nat) (vs : List Byte) (y : Nat)
    (h : y < x ∨ x + vs.length ≤ y) : (m.setBytes x vs).get y = m.get y := by
  induction vs generalizing m x with
  | nil => rfl
  | cons v vs ih =>
    simp only [List.length_cons] at h
    rw [Memory.setBytes, ih _ _ (by omega), Memory.get_set_other _ _ _ _ (by omega)]

/-- Bytes read as they were written. -/
theorem Memory.getBytes_setBytes (m : Memory) (x : Nat) (vs : List Byte) (h : m.wf) :
    (m.setBytes x vs).getBytes x vs.length = vs := by
  induction vs generalizing m x with
  | nil => rfl
  | cons v vs ih =>
    have hw := Memory.wf_set m x v h
    simp only [Memory.setBytes, List.length_cons, Memory.getBytes]
    rw [ih _ _ hw, Memory.get_setBytes_other _ _ _ _ (by omega), Memory.get_set_same m x v h]

/-- Reading bytes that a write does not meet. -/
theorem Memory.getBytes_setBytes_other (m : Memory) (x : Nat) (vs : List Byte) (y n : Nat)
    (h : y + n ≤ x ∨ x + vs.length ≤ y) : (m.setBytes x vs).getBytes y n = m.getBytes y n := by
  induction n generalizing y with
  | zero => rfl
  | succ n ih =>
    simp only [Memory.getBytes]
    rw [ih _ (by omega), Memory.get_setBytes_other _ _ _ _ (by omega)]

@[simp] theorem leBytes_length (n v : Nat) : (leBytes n v).length = n := by
  induction n generalizing v with
  | zero => rfl
  | succ n ih => simp [leBytes, ih]

/-- The little-endian bytes of a number hold it modulo 256^n (R10). -/
theorem leNat_leBytes (n v : Nat) : leNat (leBytes n v) = v % 256 ^ n := by
  induction n generalizing v with
  | zero => simp [leBytes, leNat, Nat.mod_one]
  | succ n ih =>
    rw [leBytes, leNat, ih, BitVec.toNat_ofNat, pow_succ 256 n, mul_comm (256 ^ n) 256, Nat.mod_mul]

/-- A number reads back as it was written, modulo its size. -/
theorem Memory.num_setNum (m : Memory) (x n v : Nat) (h : m.wf) : (m.setNum x n v).num x n = v % 256 ^ n := by
  have := Memory.getBytes_setBytes m x (leBytes n v) h
  rw [leBytes_length] at this
  rw [Memory.num, Memory.setNum, this, leNat_leBytes]

/-- Reading a number that a write does not meet. -/
theorem Memory.num_setBytes_other (m : Memory) (x : Nat) (vs : List Byte) (y n : Nat)
    (h : y + n ≤ x ∨ x + vs.length ≤ y) : (m.setBytes x vs).num y n = m.num y n := by
  rw [Memory.num, Memory.num, Memory.getBytes_setBytes_other m x vs y n h]

/-! ## Tables -/

@[simp] theorem Table.get?_put_same {α : Type} (t : Table α) (x : Nat) (v : α) : (t.put x v).get? x = some v := by
  induction t with
  | nil => simp [Table.put, Table.get?]
  | cons e t ih =>
    obtain ⟨k, w⟩ := e
    simp only [Table.put]
    split
    · simp [Table.get?]
    · split <;> simp_all [Table.get?]

theorem Table.get?_put_other {α : Type} (t : Table α) (x : Nat) (v : α) (y : Nat) (h : y ≠ x) :
    (t.put x v).get? y = t.get? y := by
  induction t with
  | nil => simp [Table.put, Table.get?, h]
  | cons e t ih =>
    obtain ⟨k, w⟩ := e
    simp only [Table.put]
    split
    · simp [Table.get?, h]
    · split
      · subst_vars; simp [Table.get?, h]
      · simp only [Table.get?, ih]

end Sys2Proof.Machine
end

