-- ==== Sys2Proof/Laws/PerInstr.lean ====
section
/-! SUPPORT. A family of lemmas with one member per constructor: how many bytes of thread code an instruction takes (R22, R26),
and that no instruction is more than one of a thread word, a prefix pair and a stream word. -/

namespace Sys2Proof.Laws.Length

/-- The guard and the length of `Instr.guard?` are those of the instruction's kind: 4 bytes for a thread word, 8 for a pair, none
for a stream word or an event. -/
def Statement (i : Instr) : Prop :=
  i.guard?.map Prod.snd = (if i.isThread then some 4 else if i.isPair then some 8 else none)
    ∧ (i.isThread = true → i.isPair = false ∧ ∀ e, i.isWordOf e = false)
    ∧ (i.isPair = true → ∀ e, i.isWordOf e = false)

end Sys2Proof.Laws.Length

open Sys2Proof Sys2Proof.Laws.Length

theorem Sys2Proof.Laws.Length.add : ∀ x0 x1 x2 x3, Statement (.add x0 x1 x2 x3) := fun _ _ _ _ => ⟨rfl, fun _ => ⟨rfl, fun _ => rfl⟩, fun h => absurd h Bool.false_ne_true⟩
theorem Sys2Proof.Laws.Length.sub : ∀ x0 x1 x2 x3, Statement (.sub x0 x1 x2 x3) := fun _ _ _ _ => ⟨rfl, fun _ => ⟨rfl, fun _ => rfl⟩, fun h => absurd h Bool.false_ne_true⟩
theorem Sys2Proof.Laws.Length.mul : ∀ x0 x1 x2 x3, Statement (.mul x0 x1 x2 x3) := fun _ _ _ _ => ⟨rfl, fun _ => ⟨rfl, fun _ => rfl⟩, fun h => absurd h Bool.false_ne_true⟩
theorem Sys2Proof.Laws.Length.mulhI64 : ∀ x0 x1 x2 x3, Statement (.mulhI64 x0 x1 x2 x3) := fun _ _ _ _ => ⟨rfl, fun _ => ⟨rfl, fun _ => rfl⟩, fun h => absurd h Bool.false_ne_true⟩
theorem Sys2Proof.Laws.Length.mulhN64 : ∀ x0 x1 x2 x3, Statement (.mulhN64 x0 x1 x2 x3) := fun _ _ _ _ => ⟨rfl, fun _ => ⟨rfl, fun _ => rfl⟩, fun h => absurd h Bool.false_ne_true⟩
theorem Sys2Proof.Laws.Length.divI64 : ∀ x0 x1 x2 x3, Statement (.divI64 x0 x1 x2 x3) := fun _ _ _ _ => ⟨rfl, fun _ => ⟨rfl, fun _ => rfl⟩, fun h => absurd h Bool.false_ne_true⟩
theorem Sys2Proof.Laws.Length.divN64 : ∀ x0 x1 x2 x3, Statement (.divN64 x0 x1 x2 x3) := fun _ _ _ _ => ⟨rfl, fun _ => ⟨rfl, fun _ => rfl⟩, fun h => absurd h Bool.false_ne_true⟩
theorem Sys2Proof.Laws.Length.remI64 : ∀ x0 x1 x2 x3, Statement (.remI64 x0 x1 x2 x3) := fun _ _ _ _ => ⟨rfl, fun _ => ⟨rfl, fun _ => rfl⟩, fun h => absurd h Bool.false_ne_true⟩
theorem Sys2Proof.Laws.Length.remN64 : ∀ x0 x1 x2 x3, Statement (.remN64 x0 x1 x2 x3) := fun _ _ _ _ => ⟨rfl, fun _ => ⟨rfl, fun _ => rfl⟩, fun h => absurd h Bool.false_ne_true⟩
theorem Sys2Proof.Laws.Length.addsatI64 : ∀ x0 x1 x2 x3, Statement (.addsatI64 x0 x1 x2 x3) := fun _ _ _ _ => ⟨rfl, fun _ => ⟨rfl, fun _ => rfl⟩, fun h => absurd h Bool.false_ne_true⟩
theorem Sys2Proof.Laws.Length.subsatI64 : ∀ x0 x1 x2 x3, Statement (.subsatI64 x0 x1 x2 x3) := fun _ _ _ _ => ⟨rfl, fun _ => ⟨rfl, fun _ => rfl⟩, fun h => absurd h Bool.false_ne_true⟩
theorem Sys2Proof.Laws.Length.abs : ∀ x0 x1 x2, Statement (.abs x0 x1 x2) := fun _ _ _ => ⟨rfl, fun _ => ⟨rfl, fun _ => rfl⟩, fun h => absurd h Bool.false_ne_true⟩
theorem Sys2Proof.Laws.Length.neg : ∀ x0 x1 x2, Statement (.neg x0 x1 x2) := fun _ _ _ => ⟨rfl, fun _ => ⟨rfl, fun _ => rfl⟩, fun h => absurd h Bool.false_ne_true⟩
theorem Sys2Proof.Laws.Length.and : ∀ x0 x1 x2 x3, Statement (.and x0 x1 x2 x3) := fun _ _ _ _ => ⟨rfl, fun _ => ⟨rfl, fun _ => rfl⟩, fun h => absurd h Bool.false_ne_true⟩
theorem Sys2Proof.Laws.Length.or : ∀ x0 x1 x2 x3, Statement (.or x0 x1 x2 x3) := fun _ _ _ _ => ⟨rfl, fun _ => ⟨rfl, fun _ => rfl⟩, fun h => absurd h Bool.false_ne_true⟩
theorem Sys2Proof.Laws.Length.xor : ∀ x0 x1 x2 x3, Statement (.xor x0 x1 x2 x3) := fun _ _ _ _ => ⟨rfl, fun _ => ⟨rfl, fun _ => rfl⟩, fun h => absurd h Bool.false_ne_true⟩
theorem Sys2Proof.Laws.Length.andn : ∀ x0 x1 x2 x3, Statement (.andn x0 x1 x2 x3) := fun _ _ _ _ => ⟨rfl, fun _ => ⟨rfl, fun _ => rfl⟩, fun h => absurd h Bool.false_ne_true⟩
theorem Sys2Proof.Laws.Length.orn : ∀ x0 x1 x2 x3, Statement (.orn x0 x1 x2 x3) := fun _ _ _ _ => ⟨rfl, fun _ => ⟨rfl, fun _ => rfl⟩, fun h => absurd h Bool.false_ne_true⟩
theorem Sys2Proof.Laws.Length.xnor : ∀ x0 x1 x2 x3, Statement (.xnor x0 x1 x2 x3) := fun _ _ _ _ => ⟨rfl, fun _ => ⟨rfl, fun _ => rfl⟩, fun h => absurd h Bool.false_ne_true⟩
theorem Sys2Proof.Laws.Length.shl : ∀ x0 x1 x2 x3, Statement (.shl x0 x1 x2 x3) := fun _ _ _ _ => ⟨rfl, fun _ => ⟨rfl, fun _ => rfl⟩, fun h => absurd h Bool.false_ne_true⟩
theorem Sys2Proof.Laws.Length.shr : ∀ x0 x1 x2 x3, Statement (.shr x0 x1 x2 x3) := fun _ _ _ _ => ⟨rfl, fun _ => ⟨rfl, fun _ => rfl⟩, fun h => absurd h Bool.false_ne_true⟩
theorem Sys2Proof.Laws.Length.sar : ∀ x0 x1 x2 x3, Statement (.sar x0 x1 x2 x3) := fun _ _ _ _ => ⟨rfl, fun _ => ⟨rfl, fun _ => rfl⟩, fun h => absurd h Bool.false_ne_true⟩
theorem Sys2Proof.Laws.Length.rol : ∀ x0 x1 x2 x3, Statement (.rol x0 x1 x2 x3) := fun _ _ _ _ => ⟨rfl, fun _ => ⟨rfl, fun _ => rfl⟩, fun h => absurd h Bool.false_ne_true⟩
theorem Sys2Proof.Laws.Length.ror : ∀ x0 x1 x2 x3, Statement (.ror x0 x1 x2 x3) := fun _ _ _ _ => ⟨rfl, fun _ => ⟨rfl, fun _ => rfl⟩, fun h => absurd h Bool.false_ne_true⟩
theorem Sys2Proof.Laws.Length.clz : ∀ x0 x1 x2, Statement (.clz x0 x1 x2) := fun _ _ _ => ⟨rfl, fun _ => ⟨rfl, fun _ => rfl⟩, fun h => absurd h Bool.false_ne_true⟩
theorem Sys2Proof.Laws.Length.ctz : ∀ x0 x1 x2, Statement (.ctz x0 x1 x2) := fun _ _ _ => ⟨rfl, fun _ => ⟨rfl, fun _ => rfl⟩, fun h => absurd h Bool.false_ne_true⟩
theorem Sys2Proof.Laws.Length.popc : ∀ x0 x1 x2, Statement (.popc x0 x1 x2) := fun _ _ _ => ⟨rfl, fun _ => ⟨rfl, fun _ => rfl⟩, fun h => absurd h Bool.false_ne_true⟩
theorem Sys2Proof.Laws.Length.brev : ∀ x0 x1 x2, Statement (.brev x0 x1 x2) := fun _ _ _ => ⟨rfl, fun _ => ⟨rfl, fun _ => rfl⟩, fun h => absurd h Bool.false_ne_true⟩
theorem Sys2Proof.Laws.Length.bswap : ∀ x0 x1 x2, Statement (.bswap x0 x1 x2) := fun _ _ _ => ⟨rfl, fun _ => ⟨rfl, fun _ => rfl⟩, fun h => absurd h Bool.false_ne_true⟩
theorem Sys2Proof.Laws.Length.minI64 : ∀ x0 x1 x2 x3, Statement (.minI64 x0 x1 x2 x3) := fun _ _ _ _ => ⟨rfl, fun _ => ⟨rfl, fun _ => rfl⟩, fun h => absurd h Bool.false_ne_true⟩
theorem Sys2Proof.Laws.Length.maxI64 : ∀ x0 x1 x2 x3, Statement (.maxI64 x0 x1 x2 x3) := fun _ _ _ _ => ⟨rfl, fun _ => ⟨rfl, fun _ => rfl⟩, fun h => absurd h Bool.false_ne_true⟩
theorem Sys2Proof.Laws.Length.minN64 : ∀ x0 x1 x2 x3, Statement (.minN64 x0 x1 x2 x3) := fun _ _ _ _ => ⟨rfl, fun _ => ⟨rfl, fun _ => rfl⟩, fun h => absurd h Bool.false_ne_true⟩
theorem Sys2Proof.Laws.Length.maxN64 : ∀ x0 x1 x2 x3, Statement (.maxN64 x0 x1 x2 x3) := fun _ _ _ _ => ⟨rfl, fun _ => ⟨rfl, fun _ => rfl⟩, fun h => absurd h Bool.false_ne_true⟩
theorem Sys2Proof.Laws.Length.sextI8 : ∀ x0 x1 x2, Statement (.sextI8 x0 x1 x2) := fun _ _ _ => ⟨rfl, fun _ => ⟨rfl, fun _ => rfl⟩, fun h => absurd h Bool.false_ne_true⟩
theorem Sys2Proof.Laws.Length.sextI16 : ∀ x0 x1 x2, Statement (.sextI16 x0 x1 x2) := fun _ _ _ => ⟨rfl, fun _ => ⟨rfl, fun _ => rfl⟩, fun h => absurd h Bool.false_ne_true⟩
theorem Sys2Proof.Laws.Length.sextI32 : ∀ x0 x1 x2, Statement (.sextI32 x0 x1 x2) := fun _ _ _ => ⟨rfl, fun _ => ⟨rfl, fun _ => rfl⟩, fun h => absurd h Bool.false_ne_true⟩
theorem Sys2Proof.Laws.Length.zextN8 : ∀ x0 x1 x2, Statement (.zextN8 x0 x1 x2) := fun _ _ _ => ⟨rfl, fun _ => ⟨rfl, fun _ => rfl⟩, fun h => absurd h Bool.false_ne_true⟩
theorem Sys2Proof.Laws.Length.zextN16 : ∀ x0 x1 x2, Statement (.zextN16 x0 x1 x2) := fun _ _ _ => ⟨rfl, fun _ => ⟨rfl, fun _ => rfl⟩, fun h => absurd h Bool.false_ne_true⟩
theorem Sys2Proof.Laws.Length.zextN32 : ∀ x0 x1 x2, Statement (.zextN32 x0 x1 x2) := fun _ _ _ => ⟨rfl, fun _ => ⟨rfl, fun _ => rfl⟩, fun h => absurd h Bool.false_ne_true⟩
theorem Sys2Proof.Laws.Length.mov : ∀ x0 x1 x2, Statement (.mov x0 x1 x2) := fun _ _ _ => ⟨rfl, fun _ => ⟨rfl, fun _ => rfl⟩, fun h => absurd h Bool.false_ne_true⟩
theorem Sys2Proof.Laws.Length.sel : ∀ x0 x1 x2 x3 x4, Statement (.sel x0 x1 x2 x3 x4) := fun _ _ _ _ _ => ⟨rfl, fun _ => ⟨rfl, fun _ => rfl⟩, fun h => absurd h Bool.false_ne_true⟩
theorem Sys2Proof.Laws.Length.lea : ∀ x0 x1 x2 x3 x4, Statement (.lea x0 x1 x2 x3 x4) := fun _ _ _ _ _ => ⟨rfl, fun _ => ⟨rfl, fun _ => rfl⟩, fun h => absurd h Bool.false_ne_true⟩
theorem Sys2Proof.Laws.Length.addi : ∀ x0 x1 x2 x3, Statement (.addi x0 x1 x2 x3) := fun _ _ _ _ => ⟨rfl, fun _ => ⟨rfl, fun _ => rfl⟩, fun h => absurd h Bool.false_ne_true⟩
theorem Sys2Proof.Laws.Length.andi : ∀ x0 x1 x2 x3, Statement (.andi x0 x1 x2 x3) := fun _ _ _ _ => ⟨rfl, fun _ => ⟨rfl, fun _ => rfl⟩, fun h => absurd h Bool.false_ne_true⟩
theorem Sys2Proof.Laws.Length.ori : ∀ x0 x1 x2 x3, Statement (.ori x0 x1 x2 x3) := fun _ _ _ _ => ⟨rfl, fun _ => ⟨rfl, fun _ => rfl⟩, fun h => absurd h Bool.false_ne_true⟩
theorem Sys2Proof.Laws.Length.xori : ∀ x0 x1 x2 x3, Statement (.xori x0 x1 x2 x3) := fun _ _ _ _ => ⟨rfl, fun _ => ⟨rfl, fun _ => rfl⟩, fun h => absurd h Bool.false_ne_true⟩
theorem Sys2Proof.Laws.Length.movi : ∀ x0 x1 x2, Statement (.movi x0 x1 x2) := fun _ _ _ => ⟨rfl, fun _ => ⟨rfl, fun _ => rfl⟩, fun h => absurd h Bool.false_ne_true⟩
theorem Sys2Proof.Laws.Length.inshi : ∀ x0 x1 x2, Statement (.inshi x0 x1 x2) := fun _ _ _ => ⟨rfl, fun _ => ⟨rfl, fun _ => rfl⟩, fun h => absurd h Bool.false_ne_true⟩
theorem Sys2Proof.Laws.Length.muli : ∀ x0 x1 x2 x3, Statement (.muli x0 x1 x2 x3) := fun _ _ _ _ => ⟨rfl, fun _ => ⟨rfl, fun _ => rfl⟩, fun h => absurd h Bool.false_ne_true⟩
theorem Sys2Proof.Laws.Length.addiLong : ∀ x0 x1 x2 x3, Statement (.addiLong x0 x1 x2 x3) := fun _ _ _ _ => ⟨rfl, fun h => absurd h Bool.false_ne_true, fun _ _ => rfl⟩
theorem Sys2Proof.Laws.Length.andiLong : ∀ x0 x1 x2 x3, Statement (.andiLong x0 x1 x2 x3) := fun _ _ _ _ => ⟨rfl, fun h => absurd h Bool.false_ne_true, fun _ _ => rfl⟩
theorem Sys2Proof.Laws.Length.oriLong : ∀ x0 x1 x2 x3, Statement (.oriLong x0 x1 x2 x3) := fun _ _ _ _ => ⟨rfl, fun h => absurd h Bool.false_ne_true, fun _ _ => rfl⟩
theorem Sys2Proof.Laws.Length.xoriLong : ∀ x0 x1 x2 x3, Statement (.xoriLong x0 x1 x2 x3) := fun _ _ _ _ => ⟨rfl, fun h => absurd h Bool.false_ne_true, fun _ _ => rfl⟩
theorem Sys2Proof.Laws.Length.moviLong : ∀ x0 x1 x2, Statement (.moviLong x0 x1 x2) := fun _ _ _ => ⟨rfl, fun h => absurd h Bool.false_ne_true, fun _ _ => rfl⟩
theorem Sys2Proof.Laws.Length.inshiLong : ∀ x0 x1 x2, Statement (.inshiLong x0 x1 x2) := fun _ _ _ => ⟨rfl, fun h => absurd h Bool.false_ne_true, fun _ _ => rfl⟩
theorem Sys2Proof.Laws.Length.muliLong : ∀ x0 x1 x2 x3, Statement (.muliLong x0 x1 x2 x3) := fun _ _ _ _ => ⟨rfl, fun h => absurd h Bool.false_ne_true, fun _ _ => rfl⟩
theorem Sys2Proof.Laws.Length.shli : ∀ x0 x1 x2 x3, Statement (.shli x0 x1 x2 x3) := fun _ _ _ _ => ⟨rfl, fun _ => ⟨rfl, fun _ => rfl⟩, fun h => absurd h Bool.false_ne_true⟩
theorem Sys2Proof.Laws.Length.shri : ∀ x0 x1 x2 x3, Statement (.shri x0 x1 x2 x3) := fun _ _ _ _ => ⟨rfl, fun _ => ⟨rfl, fun _ => rfl⟩, fun h => absurd h Bool.false_ne_true⟩
theorem Sys2Proof.Laws.Length.sari : ∀ x0 x1 x2 x3, Statement (.sari x0 x1 x2 x3) := fun _ _ _ _ => ⟨rfl, fun _ => ⟨rfl, fun _ => rfl⟩, fun h => absurd h Bool.false_ne_true⟩
theorem Sys2Proof.Laws.Length.rori : ∀ x0 x1 x2 x3, Statement (.rori x0 x1 x2 x3) := fun _ _ _ _ => ⟨rfl, fun _ => ⟨rfl, fun _ => rfl⟩, fun h => absurd h Bool.false_ne_true⟩
theorem Sys2Proof.Laws.Length.cmp : ∀ x0 x1 x2 x3 x4 x5, Statement (.cmp x0 x1 x2 x3 x4 x5) := fun _ _ _ _ _ _ => ⟨rfl, fun _ => ⟨rfl, fun _ => rfl⟩, fun h => absurd h Bool.false_ne_true⟩
theorem Sys2Proof.Laws.Length.cmpi : ∀ x0 x1 x2 x3 x4, Statement (.cmpi x0 x1 x2 x3 x4) := fun _ _ _ _ _ => ⟨rfl, fun _ => ⟨rfl, fun _ => rfl⟩, fun h => absurd h Bool.false_ne_true⟩
theorem Sys2Proof.Laws.Length.pand : ∀ x0 x1 x2 x3, Statement (.pand x0 x1 x2 x3) := fun _ _ _ _ => ⟨rfl, fun _ => ⟨rfl, fun _ => rfl⟩, fun h => absurd h Bool.false_ne_true⟩
theorem Sys2Proof.Laws.Length.por : ∀ x0 x1 x2 x3, Statement (.por x0 x1 x2 x3) := fun _ _ _ _ => ⟨rfl, fun _ => ⟨rfl, fun _ => rfl⟩, fun h => absurd h Bool.false_ne_true⟩
theorem Sys2Proof.Laws.Length.pxor : ∀ x0 x1 x2 x3, Statement (.pxor x0 x1 x2 x3) := fun _ _ _ _ => ⟨rfl, fun _ => ⟨rfl, fun _ => rfl⟩, fun h => absurd h Bool.false_ne_true⟩
theorem Sys2Proof.Laws.Length.pandn : ∀ x0 x1 x2 x3, Statement (.pandn x0 x1 x2 x3) := fun _ _ _ _ => ⟨rfl, fun _ => ⟨rfl, fun _ => rfl⟩, fun h => absurd h Bool.false_ne_true⟩
theorem Sys2Proof.Laws.Length.pnot : ∀ x0 x1 x2, Statement (.pnot x0 x1 x2) := fun _ _ _ => ⟨rfl, fun _ => ⟨rfl, fun _ => rfl⟩, fun h => absurd h Bool.false_ne_true⟩
theorem Sys2Proof.Laws.Length.rdp : ∀ x0 x1, Statement (.rdp x0 x1) := fun _ _ => ⟨rfl, fun _ => ⟨rfl, fun _ => rfl⟩, fun h => absurd h Bool.false_ne_true⟩
theorem Sys2Proof.Laws.Length.wrp : ∀ x0 x1, Statement (.wrp x0 x1) := fun _ _ => ⟨rfl, fun _ => ⟨rfl, fun _ => rfl⟩, fun h => absurd h Bool.false_ne_true⟩
theorem Sys2Proof.Laws.Length.fcmp : ∀ x0 x1 x2 x3 x4 x5, Statement (.fcmp x0 x1 x2 x3 x4 x5) := fun _ _ _ _ _ _ => ⟨rfl, fun _ => ⟨rfl, fun _ => rfl⟩, fun h => absurd h Bool.false_ne_true⟩
theorem Sys2Proof.Laws.Length.faddF64 : ∀ x0 x1 x2 x3 x4, Statement (.faddF64 x0 x1 x2 x3 x4) := fun _ _ _ _ _ => ⟨rfl, fun _ => ⟨rfl, fun _ => rfl⟩, fun h => absurd h Bool.false_ne_true⟩
theorem Sys2Proof.Laws.Length.fsubF64 : ∀ x0 x1 x2 x3 x4, Statement (.fsubF64 x0 x1 x2 x3 x4) := fun _ _ _ _ _ => ⟨rfl, fun _ => ⟨rfl, fun _ => rfl⟩, fun h => absurd h Bool.false_ne_true⟩
theorem Sys2Proof.Laws.Length.fmulF64 : ∀ x0 x1 x2 x3 x4, Statement (.fmulF64 x0 x1 x2 x3 x4) := fun _ _ _ _ _ => ⟨rfl, fun _ => ⟨rfl, fun _ => rfl⟩, fun h => absurd h Bool.false_ne_true⟩
theorem Sys2Proof.Laws.Length.fdivF64 : ∀ x0 x1 x2 x3 x4, Statement (.fdivF64 x0 x1 x2 x3 x4) := fun _ _ _ _ _ => ⟨rfl, fun _ => ⟨rfl, fun _ => rfl⟩, fun h => absurd h Bool.false_ne_true⟩
theorem Sys2Proof.Laws.Length.fsqrtF64 : ∀ x0 x1 x2 x3, Statement (.fsqrtF64 x0 x1 x2 x3) := fun _ _ _ _ => ⟨rfl, fun _ => ⟨rfl, fun _ => rfl⟩, fun h => absurd h Bool.false_ne_true⟩
theorem Sys2Proof.Laws.Length.fmaF64 : ∀ x0 x1 x2 x3 x4, Statement (.fmaF64 x0 x1 x2 x3 x4) := fun _ _ _ _ _ => ⟨rfl, fun _ => ⟨rfl, fun _ => rfl⟩, fun h => absurd h Bool.false_ne_true⟩
theorem Sys2Proof.Laws.Length.fminF64 : ∀ x0 x1 x2 x3, Statement (.fminF64 x0 x1 x2 x3) := fun _ _ _ _ => ⟨rfl, fun _ => ⟨rfl, fun _ => rfl⟩, fun h => absurd h Bool.false_ne_true⟩
theorem Sys2Proof.Laws.Length.fmaxF64 : ∀ x0 x1 x2 x3, Statement (.fmaxF64 x0 x1 x2 x3) := fun _ _ _ _ => ⟨rfl, fun _ => ⟨rfl, fun _ => rfl⟩, fun h => absurd h Bool.false_ne_true⟩
theorem Sys2Proof.Laws.Length.fabsF64 : ∀ x0 x1 x2, Statement (.fabsF64 x0 x1 x2) := fun _ _ _ => ⟨rfl, fun _ => ⟨rfl, fun _ => rfl⟩, fun h => absurd h Bool.false_ne_true⟩
theorem Sys2Proof.Laws.Length.fnegF64 : ∀ x0 x1 x2, Statement (.fnegF64 x0 x1 x2) := fun _ _ _ => ⟨rfl, fun _ => ⟨rfl, fun _ => rfl⟩, fun h => absurd h Bool.false_ne_true⟩
theorem Sys2Proof.Laws.Length.faddF32 : ∀ x0 x1 x2 x3 x4, Statement (.faddF32 x0 x1 x2 x3 x4) := fun _ _ _ _ _ => ⟨rfl, fun _ => ⟨rfl, fun _ => rfl⟩, fun h => absurd h Bool.false_ne_true⟩
theorem Sys2Proof.Laws.Length.fsubF32 : ∀ x0 x1 x2 x3 x4, Statement (.fsubF32 x0 x1 x2 x3 x4) := fun _ _ _ _ _ => ⟨rfl, fun _ => ⟨rfl, fun _ => rfl⟩, fun h => absurd h Bool.false_ne_true⟩
theorem Sys2Proof.Laws.Length.fmulF32 : ∀ x0 x1 x2 x3 x4, Statement (.fmulF32 x0 x1 x2 x3 x4) := fun _ _ _ _ _ => ⟨rfl, fun _ => ⟨rfl, fun _ => rfl⟩, fun h => absurd h Bool.false_ne_true⟩
theorem Sys2Proof.Laws.Length.fdivF32 : ∀ x0 x1 x2 x3 x4, Statement (.fdivF32 x0 x1 x2 x3 x4) := fun _ _ _ _ _ => ⟨rfl, fun _ => ⟨rfl, fun _ => rfl⟩, fun h => absurd h Bool.false_ne_true⟩
theorem Sys2Proof.Laws.Length.fsqrtF32 : ∀ x0 x1 x2 x3, Statement (.fsqrtF32 x0 x1 x2 x3) := fun _ _ _ _ => ⟨rfl, fun _ => ⟨rfl, fun _ => rfl⟩, fun h => absurd h Bool.false_ne_true⟩
theorem Sys2Proof.Laws.Length.fmaF32 : ∀ x0 x1 x2 x3 x4, Statement (.fmaF32 x0 x1 x2 x3 x4) := fun _ _ _ _ _ => ⟨rfl, fun _ => ⟨rfl, fun _ => rfl⟩, fun h => absurd h Bool.false_ne_true⟩
theorem Sys2Proof.Laws.Length.fminF32 : ∀ x0 x1 x2 x3, Statement (.fminF32 x0 x1 x2 x3) := fun _ _ _ _ => ⟨rfl, fun _ => ⟨rfl, fun _ => rfl⟩, fun h => absurd h Bool.false_ne_true⟩
theorem Sys2Proof.Laws.Length.fmaxF32 : ∀ x0 x1 x2 x3, Statement (.fmaxF32 x0 x1 x2 x3) := fun _ _ _ _ => ⟨rfl, fun _ => ⟨rfl, fun _ => rfl⟩, fun h => absurd h Bool.false_ne_true⟩
theorem Sys2Proof.Laws.Length.fabsF32 : ∀ x0 x1 x2, Statement (.fabsF32 x0 x1 x2) := fun _ _ _ => ⟨rfl, fun _ => ⟨rfl, fun _ => rfl⟩, fun h => absurd h Bool.false_ne_true⟩
theorem Sys2Proof.Laws.Length.fnegF32 : ∀ x0 x1 x2, Statement (.fnegF32 x0 x1 x2) := fun _ _ _ => ⟨rfl, fun _ => ⟨rfl, fun _ => rfl⟩, fun h => absurd h Bool.false_ne_true⟩
theorem Sys2Proof.Laws.Length.cvt : ∀ x0 x1 x2 x3 x4 x5, Statement (.cvt x0 x1 x2 x3 x4 x5) := fun _ _ _ _ _ _ => ⟨rfl, fun _ => ⟨rfl, fun _ => rfl⟩, fun h => absurd h Bool.false_ne_true⟩
theorem Sys2Proof.Laws.Length.lnadd : ∀ x0 x1 x2 x3 x4, Statement (.lnadd x0 x1 x2 x3 x4) := fun _ _ _ _ _ => ⟨rfl, fun _ => ⟨rfl, fun _ => rfl⟩, fun h => absurd h Bool.false_ne_true⟩
theorem Sys2Proof.Laws.Length.lnsub : ∀ x0 x1 x2 x3 x4, Statement (.lnsub x0 x1 x2 x3 x4) := fun _ _ _ _ _ => ⟨rfl, fun _ => ⟨rfl, fun _ => rfl⟩, fun h => absurd h Bool.false_ne_true⟩
theorem Sys2Proof.Laws.Length.lnmul : ∀ x0 x1 x2 x3 x4, Statement (.lnmul x0 x1 x2 x3 x4) := fun _ _ _ _ _ => ⟨rfl, fun _ => ⟨rfl, fun _ => rfl⟩, fun h => absurd h Bool.false_ne_true⟩
theorem Sys2Proof.Laws.Length.lnmin : ∀ x0 x1 x2 x3 x4, Statement (.lnmin x0 x1 x2 x3 x4) := fun _ _ _ _ _ => ⟨rfl, fun _ => ⟨rfl, fun _ => rfl⟩, fun h => absurd h Bool.false_ne_true⟩
theorem Sys2Proof.Laws.Length.lnmax : ∀ x0 x1 x2 x3 x4, Statement (.lnmax x0 x1 x2 x3 x4) := fun _ _ _ _ _ => ⟨rfl, fun _ => ⟨rfl, fun _ => rfl⟩, fun h => absurd h Bool.false_ne_true⟩
theorem Sys2Proof.Laws.Length.lnand : ∀ x0 x1 x2 x3 x4, Statement (.lnand x0 x1 x2 x3 x4) := fun _ _ _ _ _ => ⟨rfl, fun _ => ⟨rfl, fun _ => rfl⟩, fun h => absurd h Bool.false_ne_true⟩
theorem Sys2Proof.Laws.Length.lnor : ∀ x0 x1 x2 x3 x4, Statement (.lnor x0 x1 x2 x3 x4) := fun _ _ _ _ _ => ⟨rfl, fun _ => ⟨rfl, fun _ => rfl⟩, fun h => absurd h Bool.false_ne_true⟩
theorem Sys2Proof.Laws.Length.lnxor : ∀ x0 x1 x2 x3 x4, Statement (.lnxor x0 x1 x2 x3 x4) := fun _ _ _ _ _ => ⟨rfl, fun _ => ⟨rfl, fun _ => rfl⟩, fun h => absurd h Bool.false_ne_true⟩
theorem Sys2Proof.Laws.Length.lnfma : ∀ x0 x1 x2 x3 x4, Statement (.lnfma x0 x1 x2 x3 x4) := fun _ _ _ _ _ => ⟨rfl, fun _ => ⟨rfl, fun _ => rfl⟩, fun h => absurd h Bool.false_ne_true⟩
theorem Sys2Proof.Laws.Length.lncpy : ∀ x0 x1 x2 x3, Statement (.lncpy x0 x1 x2 x3) := fun _ _ _ _ => ⟨rfl, fun _ => ⟨rfl, fun _ => rfl⟩, fun h => absurd h Bool.false_ne_true⟩
theorem Sys2Proof.Laws.Length.lnsum : ∀ x0 x1 x2 x3, Statement (.lnsum x0 x1 x2 x3) := fun _ _ _ _ => ⟨rfl, fun _ => ⟨rfl, fun _ => rfl⟩, fun h => absurd h Bool.false_ne_true⟩
theorem Sys2Proof.Laws.Length.lndot : ∀ x0 x1 x2 x3 x4, Statement (.lndot x0 x1 x2 x3 x4) := fun _ _ _ _ _ => ⟨rfl, fun _ => ⟨rfl, fun _ => rfl⟩, fun h => absurd h Bool.false_ne_true⟩
theorem Sys2Proof.Laws.Length.br : ∀ x0 x1 x2, Statement (.br x0 x1 x2) := fun _ _ _ => ⟨rfl, fun _ => ⟨rfl, fun _ => rfl⟩, fun h => absurd h Bool.false_ne_true⟩
theorem Sys2Proof.Laws.Length.call : ∀ x0 x1, Statement (.call x0 x1) := fun _ _ => ⟨rfl, fun _ => ⟨rfl, fun _ => rfl⟩, fun h => absurd h Bool.false_ne_true⟩
theorem Sys2Proof.Laws.Length.ret : ∀ x0, Statement (.ret x0) := fun _ => ⟨rfl, fun _ => ⟨rfl, fun _ => rfl⟩, fun h => absurd h Bool.false_ne_true⟩
theorem Sys2Proof.Laws.Length.jmpi : ∀ x0 x1, Statement (.jmpi x0 x1) := fun _ _ => ⟨rfl, fun _ => ⟨rfl, fun _ => rfl⟩, fun h => absurd h Bool.false_ne_true⟩
theorem Sys2Proof.Laws.Length.calli : ∀ x0 x1, Statement (.calli x0 x1) := fun _ _ => ⟨rfl, fun _ => ⟨rfl, fun _ => rfl⟩, fun h => absurd h Bool.false_ne_true⟩
theorem Sys2Proof.Laws.Length.follow : ∀ x0 x1, Statement (.follow x0 x1) := fun _ _ => ⟨rfl, fun _ => ⟨rfl, fun _ => rfl⟩, fun h => absurd h Bool.false_ne_true⟩
theorem Sys2Proof.Laws.Length.detach : ∀ x0, Statement (.detach x0) := fun _ => ⟨rfl, fun _ => ⟨rfl, fun _ => rfl⟩, fun h => absurd h Bool.false_ne_true⟩
theorem Sys2Proof.Laws.Length.rejoin : ∀ x0, Statement (.rejoin x0) := fun _ => ⟨rfl, fun _ => ⟨rfl, fun _ => rfl⟩, fun h => absurd h Bool.false_ne_true⟩
theorem Sys2Proof.Laws.Length.waitcPcc : ∀ x0 x1 x2, Statement (.waitcPcc x0 x1 x2) := fun _ _ _ => ⟨rfl, fun _ => ⟨rfl, fun _ => rfl⟩, fun h => absurd h Bool.false_ne_true⟩
theorem Sys2Proof.Laws.Length.waitcWcc : ∀ x0 x1, Statement (.waitcWcc x0 x1) := fun _ _ => ⟨rfl, fun _ => ⟨rfl, fun _ => rfl⟩, fun h => absurd h Bool.false_ne_true⟩
theorem Sys2Proof.Laws.Length.rdcycPcc : ∀ x0 x1 x2, Statement (.rdcycPcc x0 x1 x2) := fun _ _ _ => ⟨rfl, fun _ => ⟨rfl, fun _ => rfl⟩, fun h => absurd h Bool.false_ne_true⟩
theorem Sys2Proof.Laws.Length.rdcycWcc : ∀ x0 x1, Statement (.rdcycWcc x0 x1) := fun _ _ => ⟨rfl, fun _ => ⟨rfl, fun _ => rfl⟩, fun h => absurd h Bool.false_ne_true⟩
theorem Sys2Proof.Laws.Length.halt : ∀ x0, Statement (.halt x0) := fun _ => ⟨rfl, fun _ => ⟨rfl, fun _ => rfl⟩, fun h => absurd h Bool.false_ne_true⟩
theorem Sys2Proof.Laws.Length.haltRetain : ∀ x0 x1, Statement (.haltRetain x0 x1) := fun _ _ => ⟨rfl, fun _ => ⟨rfl, fun _ => rfl⟩, fun h => absurd h Bool.false_ne_true⟩
theorem Sys2Proof.Laws.Length.yield : ∀ x0, Statement (.yield x0) := fun _ => ⟨rfl, fun _ => ⟨rfl, fun _ => rfl⟩, fun h => absurd h Bool.false_ne_true⟩
theorem Sys2Proof.Laws.Length.ld : ∀ x0 x1 x2 x3 x4 x5 x6, Statement (.ld x0 x1 x2 x3 x4 x5 x6) := fun _ _ _ _ _ _ _ => ⟨rfl, fun _ => ⟨rfl, fun _ => rfl⟩, fun h => absurd h Bool.false_ne_true⟩
theorem Sys2Proof.Laws.Length.st : ∀ x0 x1 x2 x3 x4 x5, Statement (.st x0 x1 x2 x3 x4 x5) := fun _ _ _ _ _ _ => ⟨rfl, fun _ => ⟨rfl, fun _ => rfl⟩, fun h => absurd h Bool.false_ne_true⟩
theorem Sys2Proof.Laws.Length.ldAcq : ∀ x0 x1 x2 x3 x4 x5, Statement (.ldAcq x0 x1 x2 x3 x4 x5) := fun _ _ _ _ _ _ => ⟨rfl, fun _ => ⟨rfl, fun _ => rfl⟩, fun h => absurd h Bool.false_ne_true⟩
theorem Sys2Proof.Laws.Length.stRel : ∀ x0 x1 x2 x3 x4, Statement (.stRel x0 x1 x2 x3 x4) := fun _ _ _ _ _ => ⟨rfl, fun _ => ⟨rfl, fun _ => rfl⟩, fun h => absurd h Bool.false_ne_true⟩
theorem Sys2Proof.Laws.Length.mark : ∀ x0, Statement (.mark x0) := fun _ => ⟨rfl, fun _ => ⟨rfl, fun _ => rfl⟩, fun h => absurd h Bool.false_ne_true⟩
theorem Sys2Proof.Laws.Length.fence : ∀ x0 x1, Statement (.fence x0 x1) := fun _ _ => ⟨rfl, fun _ => ⟨rfl, fun _ => rfl⟩, fun h => absurd h Bool.false_ne_true⟩
theorem Sys2Proof.Laws.Length.drainPool : ∀ x0, Statement (.drainPool x0) := fun _ => ⟨rfl, fun _ => ⟨rfl, fun _ => rfl⟩, fun h => absurd h Bool.false_ne_true⟩
theorem Sys2Proof.Laws.Length.drainCluster : ∀ x0, Statement (.drainCluster x0) := fun _ => ⟨rfl, fun _ => ⟨rfl, fun _ => rfl⟩, fun h => absurd h Bool.false_ne_true⟩
theorem Sys2Proof.Laws.Length.drainHbm : ∀ x0, Statement (.drainHbm x0) := fun _ => ⟨rfl, fun _ => ⟨rfl, fun _ => rfl⟩, fun h => absurd h Bool.false_ne_true⟩
theorem Sys2Proof.Laws.Length.drainTier : ∀ x0, Statement (.drainTier x0) := fun _ => ⟨rfl, fun _ => ⟨rfl, fun _ => rfl⟩, fun h => absurd h Bool.false_ne_true⟩
theorem Sys2Proof.Laws.Length.cwb : ∀ x0 x1, Statement (.cwb x0 x1) := fun _ _ => ⟨rfl, fun _ => ⟨rfl, fun _ => rfl⟩, fun h => absurd h Bool.false_ne_true⟩
theorem Sys2Proof.Laws.Length.cinv : ∀ x0 x1, Statement (.cinv x0 x1) := fun _ _ => ⟨rfl, fun _ => ⟨rfl, fun _ => rfl⟩, fun h => absurd h Bool.false_ne_true⟩
theorem Sys2Proof.Laws.Length.cflush : ∀ x0 x1, Statement (.cflush x0 x1) := fun _ _ => ⟨rfl, fun _ => ⟨rfl, fun _ => rfl⟩, fun h => absurd h Bool.false_ne_true⟩
theorem Sys2Proof.Laws.Length.cwbr : ∀ x0 x1 x2, Statement (.cwbr x0 x1 x2) := fun _ _ _ => ⟨rfl, fun _ => ⟨rfl, fun _ => rfl⟩, fun h => absurd h Bool.false_ne_true⟩
theorem Sys2Proof.Laws.Length.cinvr : ∀ x0 x1 x2, Statement (.cinvr x0 x1 x2) := fun _ _ _ => ⟨rfl, fun _ => ⟨rfl, fun _ => rfl⟩, fun h => absurd h Bool.false_ne_true⟩
theorem Sys2Proof.Laws.Length.cflushr : ∀ x0 x1 x2, Statement (.cflushr x0 x1 x2) := fun _ _ _ => ⟨rfl, fun _ => ⟨rfl, fun _ => rfl⟩, fun h => absurd h Bool.false_ne_true⟩
theorem Sys2Proof.Laws.Length.l1inv : ∀ x0, Statement (.l1inv x0) := fun _ => ⟨rfl, fun _ => ⟨rfl, fun _ => rfl⟩, fun h => absurd h Bool.false_ne_true⟩
theorem Sys2Proof.Laws.Length.faa : ∀ x0 x1 x2 x3 x4 x5 x6, Statement (.faa x0 x1 x2 x3 x4 x5 x6) := fun _ _ _ _ _ _ _ => ⟨rfl, fun _ => ⟨rfl, fun _ => rfl⟩, fun h => absurd h Bool.false_ne_true⟩
theorem Sys2Proof.Laws.Length.cas : ∀ x0 x1 x2 x3 x4 x5 x6 x7, Statement (.cas x0 x1 x2 x3 x4 x5 x6 x7) := fun _ _ _ _ _ _ _ _ => ⟨rfl, fun _ => ⟨rfl, fun _ => rfl⟩, fun h => absurd h Bool.false_ne_true⟩
theorem Sys2Proof.Laws.Length.swp : ∀ x0 x1 x2 x3 x4 x5 x6, Statement (.swp x0 x1 x2 x3 x4 x5 x6) := fun _ _ _ _ _ _ _ => ⟨rfl, fun _ => ⟨rfl, fun _ => rfl⟩, fun h => absurd h Bool.false_ne_true⟩
theorem Sys2Proof.Laws.Length.atomicAnd : ∀ x0 x1 x2 x3 x4 x5 x6, Statement (.atomicAnd x0 x1 x2 x3 x4 x5 x6) := fun _ _ _ _ _ _ _ => ⟨rfl, fun _ => ⟨rfl, fun _ => rfl⟩, fun h => absurd h Bool.false_ne_true⟩
theorem Sys2Proof.Laws.Length.atomicOr : ∀ x0 x1 x2 x3 x4 x5 x6, Statement (.atomicOr x0 x1 x2 x3 x4 x5 x6) := fun _ _ _ _ _ _ _ => ⟨rfl, fun _ => ⟨rfl, fun _ => rfl⟩, fun h => absurd h Bool.false_ne_true⟩
theorem Sys2Proof.Laws.Length.atomicXor : ∀ x0 x1 x2 x3 x4 x5 x6, Statement (.atomicXor x0 x1 x2 x3 x4 x5 x6) := fun _ _ _ _ _ _ _ => ⟨rfl, fun _ => ⟨rfl, fun _ => rfl⟩, fun h => absurd h Bool.false_ne_true⟩
theorem Sys2Proof.Laws.Length.atomicMinI : ∀ x0 x1 x2 x3 x4 x5 x6, Statement (.atomicMinI x0 x1 x2 x3 x4 x5 x6) := fun _ _ _ _ _ _ _ => ⟨rfl, fun _ => ⟨rfl, fun _ => rfl⟩, fun h => absurd h Bool.false_ne_true⟩
theorem Sys2Proof.Laws.Length.atomicMaxI : ∀ x0 x1 x2 x3 x4 x5 x6, Statement (.atomicMaxI x0 x1 x2 x3 x4 x5 x6) := fun _ _ _ _ _ _ _ => ⟨rfl, fun _ => ⟨rfl, fun _ => rfl⟩, fun h => absurd h Bool.false_ne_true⟩
theorem Sys2Proof.Laws.Length.atomicMinN : ∀ x0 x1 x2 x3 x4 x5 x6, Statement (.atomicMinN x0 x1 x2 x3 x4 x5 x6) := fun _ _ _ _ _ _ _ => ⟨rfl, fun _ => ⟨rfl, fun _ => rfl⟩, fun h => absurd h Bool.false_ne_true⟩
theorem Sys2Proof.Laws.Length.atomicMaxN : ∀ x0 x1 x2 x3 x4 x5 x6, Statement (.atomicMaxN x0 x1 x2 x3 x4 x5 x6) := fun _ _ _ _ _ _ _ => ⟨rfl, fun _ => ⟨rfl, fun _ => rfl⟩, fun h => absurd h Bool.false_ne_true⟩
theorem Sys2Proof.Laws.Length.fadda : ∀ x0 x1 x2 x3 x4 x5 x6, Statement (.fadda x0 x1 x2 x3 x4 x5 x6) := fun _ _ _ _ _ _ _ => ⟨rfl, fun _ => ⟨rfl, fun _ => rfl⟩, fun h => absurd h Bool.false_ne_true⟩
theorem Sys2Proof.Laws.Length.redc : ∀ x0 x1 x2 x3 x4 x5, Statement (.redc x0 x1 x2 x3 x4 x5) := fun _ _ _ _ _ _ => ⟨rfl, fun _ => ⟨rfl, fun _ => rfl⟩, fun h => absurd h Bool.false_ne_true⟩
theorem Sys2Proof.Laws.Length.spawnu : ∀ x0 x1 x2 x3, Statement (.spawnu x0 x1 x2 x3) := fun _ _ _ _ => ⟨rfl, fun _ => ⟨rfl, fun _ => rfl⟩, fun h => absurd h Bool.false_ne_true⟩
theorem Sys2Proof.Laws.Length.mig : ∀ x0 x1, Statement (.mig x0 x1) := fun _ _ => ⟨rfl, fun _ => ⟨rfl, fun _ => rfl⟩, fun h => absurd h Bool.false_ne_true⟩
theorem Sys2Proof.Laws.Length.home : ∀ x0, Statement (.home x0) := fun _ => ⟨rfl, fun _ => ⟨rfl, fun _ => rfl⟩, fun h => absurd h Bool.false_ne_true⟩
theorem Sys2Proof.Laws.Length.send : ∀ x0 x1 x2 x3, Statement (.send x0 x1 x2 x3) := fun _ _ _ _ => ⟨rfl, fun _ => ⟨rfl, fun _ => rfl⟩, fun h => absurd h Bool.false_ne_true⟩
theorem Sys2Proof.Laws.Length.mcast : ∀ x0 x1 x2 x3, Statement (.mcast x0 x1 x2 x3) := fun _ _ _ _ => ⟨rfl, fun _ => ⟨rfl, fun _ => rfl⟩, fun h => absurd h Bool.false_ne_true⟩
theorem Sys2Proof.Laws.Length.recv : ∀ x0 x1, Statement (.recv x0 x1) := fun _ _ => ⟨rfl, fun _ => ⟨rfl, fun _ => rfl⟩, fun h => absurd h Bool.false_ne_true⟩
theorem Sys2Proof.Laws.Length.bind : ∀ x0 x1 x2, Statement (.bind x0 x1 x2) := fun _ _ _ => ⟨rfl, fun _ => ⟨rfl, fun _ => rfl⟩, fun h => absurd h Bool.false_ne_true⟩
theorem Sys2Proof.Laws.Length.spawn : ∀ x0 x1, Statement (.spawn x0 x1) := fun _ _ => ⟨rfl, fun _ => ⟨rfl, fun _ => rfl⟩, fun h => absurd h Bool.false_ne_true⟩
theorem Sys2Proof.Laws.Length.join : ∀ x0 x1, Statement (.join x0 x1) := fun _ _ => ⟨rfl, fun _ => ⟨rfl, fun _ => rfl⟩, fun h => absurd h Bool.false_ne_true⟩
theorem Sys2Proof.Laws.Length.taskend : ∀ x0, Statement (.taskend x0) := fun _ => ⟨rfl, fun _ => ⟨rfl, fun _ => rfl⟩, fun h => absurd h Bool.false_ne_true⟩
theorem Sys2Proof.Laws.Length.epushCopy : ∀ x0 x1, Statement (.epushCopy x0 x1) := fun _ _ => ⟨rfl, fun _ => ⟨rfl, fun _ => rfl⟩, fun h => absurd h Bool.false_ne_true⟩
theorem Sys2Proof.Laws.Length.epushGather : ∀ x0 x1, Statement (.epushGather x0 x1) := fun _ _ => ⟨rfl, fun _ => ⟨rfl, fun _ => rfl⟩, fun h => absurd h Bool.false_ne_true⟩
theorem Sys2Proof.Laws.Length.epushColl : ∀ x0 x1, Statement (.epushColl x0 x1) := fun _ _ => ⟨rfl, fun _ => ⟨rfl, fun _ => rfl⟩, fun h => absurd h Bool.false_ne_true⟩
theorem Sys2Proof.Laws.Length.epopCopy : ∀ x0 x1, Statement (.epopCopy x0 x1) := fun _ _ => ⟨rfl, fun _ => ⟨rfl, fun _ => rfl⟩, fun h => absurd h Bool.false_ne_true⟩
theorem Sys2Proof.Laws.Length.epopGather : ∀ x0 x1, Statement (.epopGather x0 x1) := fun _ _ => ⟨rfl, fun _ => ⟨rfl, fun _ => rfl⟩, fun h => absurd h Bool.false_ne_true⟩
theorem Sys2Proof.Laws.Length.epopColl : ∀ x0 x1, Statement (.epopColl x0 x1) := fun _ _ => ⟨rfl, fun _ => ⟨rfl, fun _ => rfl⟩, fun h => absurd h Bool.false_ne_true⟩
theorem Sys2Proof.Laws.Length.post : ∀ x0 x1 x2, Statement (.post x0 x1 x2) := fun _ _ _ => ⟨rfl, fun _ => ⟨rfl, fun _ => rfl⟩, fun h => absurd h Bool.false_ne_true⟩
theorem Sys2Proof.Laws.Length.job : ∀ x0 x1 x2, Statement (.job x0 x1 x2) := fun _ _ _ => ⟨rfl, fun _ => ⟨rfl, fun _ => rfl⟩, fun h => absurd h Bool.false_ne_true⟩
theorem Sys2Proof.Laws.Length.jobRel : ∀ x0 x1 x2, Statement (.jobRel x0 x1 x2) := fun _ _ _ => ⟨rfl, fun _ => ⟨rfl, fun _ => rfl⟩, fun h => absurd h Bool.false_ne_true⟩
theorem Sys2Proof.Laws.Length.salloc : ∀ x0 x1 x2 x3, Statement (.salloc x0 x1 x2 x3) := fun _ _ _ _ => ⟨rfl, fun _ => ⟨rfl, fun _ => rfl⟩, fun h => absurd h Bool.false_ne_true⟩
theorem Sys2Proof.Laws.Length.sallocMir : ∀ x0 x1 x2 x3, Statement (.sallocMir x0 x1 x2 x3) := fun _ _ _ _ => ⟨rfl, fun _ => ⟨rfl, fun _ => rfl⟩, fun h => absurd h Bool.false_ne_true⟩
theorem Sys2Proof.Laws.Length.sfree : ∀ x0 x1, Statement (.sfree x0 x1) := fun _ _ => ⟨rfl, fun _ => ⟨rfl, fun _ => rfl⟩, fun h => absurd h Bool.false_ne_true⟩
theorem Sys2Proof.Laws.Length.sinfoSize : ∀ x0 x1 x2, Statement (.sinfoSize x0 x1 x2) := fun _ _ _ => ⟨rfl, fun _ => ⟨rfl, fun _ => rfl⟩, fun h => absurd h Bool.false_ne_true⟩
theorem Sys2Proof.Laws.Length.sinfoHealth : ∀ x0 x1 x2, Statement (.sinfoHealth x0 x1 x2) := fun _ _ _ => ⟨rfl, fun _ => ⟨rfl, fun _ => rfl⟩, fun h => absurd h Bool.false_ne_true⟩
theorem Sys2Proof.Laws.Length.sinfoQuota : ∀ x0 x1 x2, Statement (.sinfoQuota x0 x1 x2) := fun _ _ _ => ⟨rfl, fun _ => ⟨rfl, fun _ => rfl⟩, fun h => absurd h Bool.false_ne_true⟩
theorem Sys2Proof.Laws.Length.sinfoInc : ∀ x0 x1 x2, Statement (.sinfoInc x0 x1 x2) := fun _ _ _ => ⟨rfl, fun _ => ⟨rfl, fun _ => rfl⟩, fun h => absurd h Bool.false_ne_true⟩
theorem Sys2Proof.Laws.Length.dotm : ∀ x0 x1 x2 x3, Statement (.dotm x0 x1 x2 x3) := fun _ _ _ _ => ⟨rfl, fun _ => ⟨rfl, fun _ => rfl⟩, fun h => absurd h Bool.false_ne_true⟩
theorem Sys2Proof.Laws.Length.eret : ∀ x0, Statement (.eret x0) := fun _ => ⟨rfl, fun _ => ⟨rfl, fun _ => rfl⟩, fun h => absurd h Bool.false_ne_true⟩
theorem Sys2Proof.Laws.Length.xinv : ∀ x0 x1 x2, Statement (.xinv x0 x1 x2) := fun _ _ _ => ⟨rfl, fun _ => ⟨rfl, fun _ => rfl⟩, fun h => absurd h Bool.false_ne_true⟩
theorem Sys2Proof.Laws.Length.snap : ∀ x0, Statement (.snap x0) := fun _ => ⟨rfl, fun _ => ⟨rfl, fun _ => rfl⟩, fun h => absurd h Bool.false_ne_true⟩
theorem Sys2Proof.Laws.Length.bkpt : ∀ x0, Statement (.bkpt x0) := fun _ => ⟨rfl, fun _ => ⟨rfl, fun _ => rfl⟩, fun h => absurd h Bool.false_ne_true⟩
theorem Sys2Proof.Laws.Length.trap : ∀ x0 x1, Statement (.trap x0 x1) := fun _ _ => ⟨rfl, fun _ => ⟨rfl, fun _ => rfl⟩, fun h => absurd h Bool.false_ne_true⟩
theorem Sys2Proof.Laws.Length.sysr : ∀ x0 x1 x2, Statement (.sysr x0 x1 x2) := fun _ _ _ => ⟨rfl, fun _ => ⟨rfl, fun _ => rfl⟩, fun h => absurd h Bool.false_ne_true⟩
theorem Sys2Proof.Laws.Length.sysw : ∀ x0 x1 x2, Statement (.sysw x0 x1 x2) := fun _ _ _ => ⟨rfl, fun _ => ⟨rfl, fun _ => rfl⟩, fun h => absurd h Bool.false_ne_true⟩
theorem Sys2Proof.Laws.Length.syswWp : ∀ x0 x1, Statement (.syswWp x0 x1) := fun _ _ => ⟨rfl, fun _ => ⟨rfl, fun _ => rfl⟩, fun h => absurd h Bool.false_ne_true⟩
theorem Sys2Proof.Laws.Length.syswSpace : ∀ x0 x1, Statement (.syswSpace x0 x1) := fun _ _ => ⟨rfl, fun _ => ⟨rfl, fun _ => rfl⟩, fun h => absurd h Bool.false_ne_true⟩
theorem Sys2Proof.Laws.Length.syswBndW : ∀ x0 x1, Statement (.syswBndW x0 x1) := fun _ _ => ⟨rfl, fun _ => ⟨rfl, fun _ => rfl⟩, fun h => absurd h Bool.false_ne_true⟩
theorem Sys2Proof.Laws.Length.syswBndS : ∀ x0 x1, Statement (.syswBndS x0 x1) := fun _ _ => ⟨rfl, fun _ => ⟨rfl, fun _ => rfl⟩, fun h => absurd h Bool.false_ne_true⟩
theorem Sys2Proof.Laws.Length.syswBndL : ∀ x0 x1, Statement (.syswBndL x0 x1) := fun _ _ => ⟨rfl, fun _ => ⟨rfl, fun _ => rfl⟩, fun h => absurd h Bool.false_ne_true⟩
theorem Sys2Proof.Laws.Length.syswWin : ∀ x0 x1 x2, Statement (.syswWin x0 x1 x2) := fun _ _ _ => ⟨rfl, fun _ => ⟨rfl, fun _ => rfl⟩, fun h => absurd h Bool.false_ne_true⟩
theorem Sys2Proof.Laws.Length.syswHmask : ∀ x0 x1 x2, Statement (.syswHmask x0 x1 x2) := fun _ _ _ => ⟨rfl, fun _ => ⟨rfl, fun _ => rfl⟩, fun h => absurd h Bool.false_ne_true⟩
theorem Sys2Proof.Laws.Length.syswSlotmap : ∀ x0 x1, Statement (.syswSlotmap x0 x1) := fun _ _ => ⟨rfl, fun _ => ⟨rfl, fun _ => rfl⟩, fun h => absurd h Bool.false_ne_true⟩
theorem Sys2Proof.Laws.Length.syswDomtabB : ∀ x0 x1 x2, Statement (.syswDomtabB x0 x1 x2) := fun _ _ _ => ⟨rfl, fun _ => ⟨rfl, fun _ => rfl⟩, fun h => absurd h Bool.false_ne_true⟩
theorem Sys2Proof.Laws.Length.syswDomtabL : ∀ x0 x1 x2, Statement (.syswDomtabL x0 x1 x2) := fun _ _ _ => ⟨rfl, fun _ => ⟨rfl, fun _ => rfl⟩, fun h => absurd h Bool.false_ne_true⟩
theorem Sys2Proof.Laws.Length.lit : ∀ x0, Statement (.lit x0) := fun _ => ⟨rfl, fun h => absurd h Bool.false_ne_true, fun h => absurd h Bool.false_ne_true⟩
theorem Sys2Proof.Laws.Length.ext : ∀ x0, Statement (.ext x0) := fun _ => ⟨rfl, fun h => absurd h Bool.false_ne_true, fun h => absurd h Bool.false_ne_true⟩
theorem Sys2Proof.Laws.Length.shls : ∀ x0 x1, Statement (.shls x0 x1) := fun _ _ => ⟨rfl, fun h => absurd h Bool.false_ne_true, fun h => absurd h Bool.false_ne_true⟩
theorem Sys2Proof.Laws.Length.setf : ∀ x0, Statement (.setf x0) := fun _ => ⟨rfl, fun h => absurd h Bool.false_ne_true, fun h => absurd h Bool.false_ne_true⟩
theorem Sys2Proof.Laws.Length.take : ∀ x0, Statement (.take x0) := fun _ => ⟨rfl, fun h => absurd h Bool.false_ne_true, fun h => absurd h Bool.false_ne_true⟩
theorem Sys2Proof.Laws.Length.await : ∀ x0, Statement (.await x0) := fun _ => ⟨rfl, fun h => absurd h Bool.false_ne_true, fun h => absurd h Bool.false_ne_true⟩
theorem Sys2Proof.Laws.Length.ldw : ∀ x0, Statement (.ldw x0) := fun _ => ⟨rfl, fun h => absurd h Bool.false_ne_true, fun h => absurd h Bool.false_ne_true⟩
theorem Sys2Proof.Laws.Length.lda : ∀ x0, Statement (.lda x0) := fun _ => ⟨rfl, fun h => absurd h Bool.false_ne_true, fun h => absurd h Bool.false_ne_true⟩
theorem Sys2Proof.Laws.Length.lds : ∀ x0, Statement (.lds x0) := fun _ => ⟨rfl, fun h => absurd h Bool.false_ne_true, fun h => absurd h Bool.false_ne_true⟩
theorem Sys2Proof.Laws.Length.pfw : ∀ x0, Statement (.pfw x0) := fun _ => ⟨rfl, fun h => absurd h Bool.false_ne_true, fun h => absurd h Bool.false_ne_true⟩
theorem Sys2Proof.Laws.Length.pfa : ∀ x0, Statement (.pfa x0) := fun _ => ⟨rfl, fun h => absurd h Bool.false_ne_true, fun h => absurd h Bool.false_ne_true⟩
theorem Sys2Proof.Laws.Length.tfw : ∀ x0, Statement (.tfw x0) := fun _ => ⟨rfl, fun h => absurd h Bool.false_ne_true, fun h => absurd h Bool.false_ne_true⟩
theorem Sys2Proof.Laws.Length.tfa : ∀ x0, Statement (.tfa x0) := fun _ => ⟨rfl, fun h => absurd h Bool.false_ne_true, fun h => absurd h Bool.false_ne_true⟩
theorem Sys2Proof.Laws.Length.gta : ∀ x0, Statement (.gta x0) := fun _ => ⟨rfl, fun h => absurd h Bool.false_ne_true, fun h => absurd h Bool.false_ne_true⟩
theorem Sys2Proof.Laws.Length.mma : ∀ x0 x1 x2 x3, Statement (.mma x0 x1 x2 x3) := fun _ _ _ _ => ⟨rfl, fun h => absurd h Bool.false_ne_true, fun h => absurd h Bool.false_ne_true⟩
theorem Sys2Proof.Laws.Length.mmaz : ∀ x0 x1 x2 x3, Statement (.mmaz x0 x1 x2 x3) := fun _ _ _ _ => ⟨rfl, fun h => absurd h Bool.false_ne_true, fun h => absurd h Bool.false_ne_true⟩
theorem Sys2Proof.Laws.Length.dwa : ∀ x0, Statement (.dwa x0) := fun _ => ⟨rfl, fun h => absurd h Bool.false_ne_true, fun h => absurd h Bool.false_ne_true⟩
theorem Sys2Proof.Laws.Length.dwaz : ∀ x0, Statement (.dwaz x0) := fun _ => ⟨rfl, fun h => absurd h Bool.false_ne_true, fun h => absurd h Bool.false_ne_true⟩
theorem Sys2Proof.Laws.Length.vadd : ∀ x0, Statement (.vadd x0) := fun _ => ⟨rfl, fun h => absurd h Bool.false_ne_true, fun h => absurd h Bool.false_ne_true⟩
theorem Sys2Proof.Laws.Length.vsub : ∀ x0, Statement (.vsub x0) := fun _ => ⟨rfl, fun h => absurd h Bool.false_ne_true, fun h => absurd h Bool.false_ne_true⟩
theorem Sys2Proof.Laws.Length.vmul : ∀ x0, Statement (.vmul x0) := fun _ => ⟨rfl, fun h => absurd h Bool.false_ne_true, fun h => absurd h Bool.false_ne_true⟩
theorem Sys2Proof.Laws.Length.vfma : ∀ x0, Statement (.vfma x0) := fun _ => ⟨rfl, fun h => absurd h Bool.false_ne_true, fun h => absurd h Bool.false_ne_true⟩
theorem Sys2Proof.Laws.Length.vmax : ∀ x0, Statement (.vmax x0) := fun _ => ⟨rfl, fun h => absurd h Bool.false_ne_true, fun h => absurd h Bool.false_ne_true⟩
theorem Sys2Proof.Laws.Length.vmin : ∀ x0, Statement (.vmin x0) := fun _ => ⟨rfl, fun h => absurd h Bool.false_ne_true, fun h => absurd h Bool.false_ne_true⟩
theorem Sys2Proof.Laws.Length.vabs : ∀ x0, Statement (.vabs x0) := fun _ => ⟨rfl, fun h => absurd h Bool.false_ne_true, fun h => absurd h Bool.false_ne_true⟩
theorem Sys2Proof.Laws.Length.vexp : ∀ x0, Statement (.vexp x0) := fun _ => ⟨rfl, fun h => absurd h Bool.false_ne_true, fun h => absurd h Bool.false_ne_true⟩
theorem Sys2Proof.Laws.Length.vrcp : ∀ x0, Statement (.vrcp x0) := fun _ => ⟨rfl, fun h => absurd h Bool.false_ne_true, fun h => absurd h Bool.false_ne_true⟩
theorem Sys2Proof.Laws.Length.vrsq : ∀ x0, Statement (.vrsq x0) := fun _ => ⟨rfl, fun h => absurd h Bool.false_ne_true, fun h => absurd h Bool.false_ne_true⟩
theorem Sys2Proof.Laws.Length.vsel : ∀ x0, Statement (.vsel x0) := fun _ => ⟨rfl, fun h => absurd h Bool.false_ne_true, fun h => absurd h Bool.false_ne_true⟩
theorem Sys2Proof.Laws.Length.vcmp : ∀ x0 x1, Statement (.vcmp x0 x1) := fun _ _ => ⟨rfl, fun h => absurd h Bool.false_ne_true, fun h => absurd h Bool.false_ne_true⟩
theorem Sys2Proof.Laws.Length.vred : ∀ x0 x1, Statement (.vred x0 x1) := fun _ _ => ⟨rfl, fun h => absurd h Bool.false_ne_true, fun h => absurd h Bool.false_ne_true⟩
theorem Sys2Proof.Laws.Length.vcvt : ∀ x0 x1, Statement (.vcvt x0 x1) := fun _ _ => ⟨rfl, fun h => absurd h Bool.false_ne_true, fun h => absurd h Bool.false_ne_true⟩
theorem Sys2Proof.Laws.Length.vres : ∀ x0 x1, Statement (.vres x0 x1) := fun _ _ => ⟨rfl, fun h => absurd h Bool.false_ne_true, fun h => absurd h Bool.false_ne_true⟩
theorem Sys2Proof.Laws.Length.vcmpu : ∀ x0 x1, Statement (.vcmpu x0 x1) := fun _ _ => ⟨rfl, fun h => absurd h Bool.false_ne_true, fun h => absurd h Bool.false_ne_true⟩
theorem Sys2Proof.Laws.Length.vrq : ∀ x0 x1, Statement (.vrq x0 x1) := fun _ _ => ⟨rfl, fun h => absurd h Bool.false_ne_true, fun h => absurd h Bool.false_ne_true⟩
theorem Sys2Proof.Laws.Length.vmov : ∀ x0, Statement (.vmov x0) := fun _ => ⟨rfl, fun h => absurd h Bool.false_ne_true, fun h => absurd h Bool.false_ne_true⟩
theorem Sys2Proof.Laws.Length.cprs : ∀ x0 x1, Statement (.cprs x0 x1) := fun _ _ => ⟨rfl, fun h => absurd h Bool.false_ne_true, fun h => absurd h Bool.false_ne_true⟩
theorem Sys2Proof.Laws.Length.cprh : ∀ x0 x1, Statement (.cprh x0 x1) := fun _ _ => ⟨rfl, fun h => absurd h Bool.false_ne_true, fun h => absurd h Bool.false_ne_true⟩
theorem Sys2Proof.Laws.Length.topr : ∀ x0, Statement (.topr x0) := fun _ => ⟨rfl, fun h => absurd h Bool.false_ne_true, fun h => absurd h Bool.false_ne_true⟩
theorem Sys2Proof.Laws.Length.topc : ∀ x0, Statement (.topc x0) := fun _ => ⟨rfl, fun h => absurd h Bool.false_ne_true, fun h => absurd h Bool.false_ne_true⟩
theorem Sys2Proof.Laws.Length.fillc : ∀ x0, Statement (.fillc x0) := fun _ => ⟨rfl, fun h => absurd h Bool.false_ne_true, fun h => absurd h Bool.false_ne_true⟩
theorem Sys2Proof.Laws.Length.dup : Statement (.dup) := ⟨rfl, fun h => absurd h Bool.false_ne_true, fun h => absurd h Bool.false_ne_true⟩
theorem Sys2Proof.Laws.Length.drop : Statement (.drop) := ⟨rfl, fun h => absurd h Bool.false_ne_true, fun h => absurd h Bool.false_ne_true⟩
theorem Sys2Proof.Laws.Length.swap : Statement (.swap) := ⟨rfl, fun h => absurd h Bool.false_ne_true, fun h => absurd h Bool.false_ne_true⟩
theorem Sys2Proof.Laws.Length.over : Statement (.over) := ⟨rfl, fun h => absurd h Bool.false_ne_true, fun h => absurd h Bool.false_ne_true⟩
theorem Sys2Proof.Laws.Length.adds : Statement (.adds) := ⟨rfl, fun h => absurd h Bool.false_ne_true, fun h => absurd h Bool.false_ne_true⟩
theorem Sys2Proof.Laws.Length.subs : Statement (.subs) := ⟨rfl, fun h => absurd h Bool.false_ne_true, fun h => absurd h Bool.false_ne_true⟩
theorem Sys2Proof.Laws.Length.atW : Statement (.atW) := ⟨rfl, fun h => absurd h Bool.false_ne_true, fun h => absurd h Bool.false_ne_true⟩
theorem Sys2Proof.Laws.Length.dt : Statement (.dt) := ⟨rfl, fun h => absurd h Bool.false_ne_true, fun h => absurd h Bool.false_ne_true⟩
theorem Sys2Proof.Laws.Length.rdv : Statement (.rdv) := ⟨rfl, fun h => absurd h Bool.false_ne_true, fun h => absurd h Bool.false_ne_true⟩
theorem Sys2Proof.Laws.Length.loopW : Statement (.loopW) := ⟨rfl, fun h => absurd h Bool.false_ne_true, fun h => absurd h Bool.false_ne_true⟩
theorem Sys2Proof.Laws.Length.loopReg : Statement (.loopReg) := ⟨rfl, fun h => absurd h Bool.false_ne_true, fun h => absurd h Bool.false_ne_true⟩
theorem Sys2Proof.Laws.Length.endl : Statement (.endl) := ⟨rfl, fun h => absurd h Bool.false_ne_true, fun h => absurd h Bool.false_ne_true⟩
theorem Sys2Proof.Laws.Length.ppt : Statement (.ppt) := ⟨rfl, fun h => absurd h Bool.false_ne_true, fun h => absurd h Bool.false_ne_true⟩
theorem Sys2Proof.Laws.Length.haltj : Statement (.haltj) := ⟨rfl, fun h => absurd h Bool.false_ne_true, fun h => absurd h Bool.false_ne_true⟩
theorem Sys2Proof.Laws.Length.nopw : Statement (.nopw) := ⟨rfl, fun h => absurd h Bool.false_ne_true, fun h => absurd h Bool.false_ne_true⟩
theorem Sys2Proof.Laws.Length.fmt : Statement (.fmt) := ⟨rfl, fun h => absurd h Bool.false_ne_true, fun h => absurd h Bool.false_ne_true⟩
theorem Sys2Proof.Laws.Length.ctab : Statement (.ctab) := ⟨rfl, fun h => absurd h Bool.false_ne_true, fun h => absurd h Bool.false_ne_true⟩
theorem Sys2Proof.Laws.Length.tsclW : Statement (.tsclW) := ⟨rfl, fun h => absurd h Bool.false_ne_true, fun h => absurd h Bool.false_ne_true⟩
theorem Sys2Proof.Laws.Length.tsclA : Statement (.tsclA) := ⟨rfl, fun h => absurd h Bool.false_ne_true, fun h => absurd h Bool.false_ne_true⟩
theorem Sys2Proof.Laws.Length.oasis : Statement (.oasis) := ⟨rfl, fun h => absurd h Bool.false_ne_true, fun h => absurd h Bool.false_ne_true⟩
theorem Sys2Proof.Laws.Length.segt : Statement (.segt) := ⟨rfl, fun h => absurd h Bool.false_ne_true, fun h => absurd h Bool.false_ne_true⟩
theorem Sys2Proof.Laws.Length.manc : Statement (.manc) := ⟨rfl, fun h => absurd h Bool.false_ne_true, fun h => absurd h Bool.false_ne_true⟩
theorem Sys2Proof.Laws.Length.mancOff : Statement (.mancOff) := ⟨rfl, fun h => absurd h Bool.false_ne_true, fun h => absurd h Bool.false_ne_true⟩
theorem Sys2Proof.Laws.Length.selk : Statement (.selk) := ⟨rfl, fun h => absurd h Bool.false_ne_true, fun h => absurd h Bool.false_ne_true⟩
theorem Sys2Proof.Laws.Length.shape : Statement (.shape) := ⟨rfl, fun h => absurd h Bool.false_ne_true, fun h => absurd h Bool.false_ne_true⟩
theorem Sys2Proof.Laws.Length.rdpcc : Statement (.rdpcc) := ⟨rfl, fun h => absurd h Bool.false_ne_true, fun h => absurd h Bool.false_ne_true⟩
theorem Sys2Proof.Laws.Length.cpaa : Statement (.cpaa) := ⟨rfl, fun h => absurd h Bool.false_ne_true, fun h => absurd h Bool.false_ne_true⟩
theorem Sys2Proof.Laws.Length.cpah : Statement (.cpah) := ⟨rfl, fun h => absurd h Bool.false_ne_true, fun h => absurd h Bool.false_ne_true⟩
theorem Sys2Proof.Laws.Length.spill : Statement (.spill) := ⟨rfl, fun h => absurd h Bool.false_ne_true, fun h => absurd h Bool.false_ne_true⟩
theorem Sys2Proof.Laws.Length.jobAccept : Statement (.jobAccept) := ⟨rfl, fun h => absurd h Bool.false_ne_true, fun h => absurd h Bool.false_ne_true⟩
theorem Sys2Proof.Laws.Length.decodeStart : Statement (.decodeStart) := ⟨rfl, fun h => absurd h Bool.false_ne_true, fun h => absurd h Bool.false_ne_true⟩
theorem Sys2Proof.Laws.Length.oasisClose : Statement (.oasisClose) := ⟨rfl, fun h => absurd h Bool.false_ne_true, fun h => absurd h Bool.false_ne_true⟩
theorem Sys2Proof.Laws.Length.postArrival : Statement (.postArrival) := ⟨rfl, fun h => absurd h Bool.false_ne_true, fun h => absurd h Bool.false_ne_true⟩
theorem Sys2Proof.Laws.Length.postAck : Statement (.postAck) := ⟨rfl, fun h => absurd h Bool.false_ne_true, fun h => absurd h Bool.false_ne_true⟩
theorem Sys2Proof.Laws.Length.holdOnset : Statement (.holdOnset) := ⟨rfl, fun h => absurd h Bool.false_ne_true, fun h => absurd h Bool.false_ne_true⟩
theorem Sys2Proof.Laws.Length.haboobEnd : Statement (.haboobEnd) := ⟨rfl, fun h => absurd h Bool.false_ne_true, fun h => absurd h Bool.false_ne_true⟩
theorem Sys2Proof.Laws.Length.segmentRedirect : Statement (.segmentRedirect) := ⟨rfl, fun h => absurd h Bool.false_ne_true, fun h => absurd h Bool.false_ne_true⟩
theorem Sys2Proof.Laws.Length.maxgapExpiry : Statement (.maxgapExpiry) := ⟨rfl, fun h => absurd h Bool.false_ne_true, fun h => absurd h Bool.false_ne_true⟩
theorem Sys2Proof.Laws.Length.loadDeadline : Statement (.loadDeadline) := ⟨rfl, fun h => absurd h Bool.false_ne_true, fun h => absurd h Bool.false_ne_true⟩
theorem Sys2Proof.Laws.Length.loadLanding : Statement (.loadLanding) := ⟨rfl, fun h => absurd h Bool.false_ne_true, fun h => absurd h Bool.false_ne_true⟩
theorem Sys2Proof.Laws.Length.tileRowComplete : Statement (.tileRowComplete) := ⟨rfl, fun h => absurd h Bool.false_ne_true, fun h => absurd h Bool.false_ne_true⟩
theorem Sys2Proof.Laws.Length.vxeStepComplete : Statement (.vxeStepComplete) := ⟨rfl, fun h => absurd h Bool.false_ne_true, fun h => absurd h Bool.false_ne_true⟩
theorem Sys2Proof.Laws.Length.cpeWritePerformed : Statement (.cpeWritePerformed) := ⟨rfl, fun h => absurd h Bool.false_ne_true, fun h => absurd h Bool.false_ne_true⟩
theorem Sys2Proof.Laws.Length.milestoneStore : Statement (.milestoneStore) := ⟨rfl, fun h => absurd h Bool.false_ne_true, fun h => absurd h Bool.false_ne_true⟩
theorem Sys2Proof.Laws.Length.jobComplete : Statement (.jobComplete) := ⟨rfl, fun h => absurd h Bool.false_ne_true, fun h => absurd h Bool.false_ne_true⟩
theorem Sys2Proof.Laws.Length.jobFaultRecord : Statement (.jobFaultRecord) := ⟨rfl, fun h => absurd h Bool.false_ne_true, fun h => absurd h Bool.false_ne_true⟩
theorem Sys2Proof.Laws.Length.bankClearEnd : Statement (.bankClearEnd) := ⟨rfl, fun h => absurd h Bool.false_ne_true, fun h => absurd h Bool.false_ne_true⟩
theorem Sys2Proof.Laws.Length.bankWriteOutEnd : Statement (.bankWriteOutEnd) := ⟨rfl, fun h => absurd h Bool.false_ne_true, fun h => absurd h Bool.false_ne_true⟩
theorem Sys2Proof.Laws.Length.bankFillEnd : Statement (.bankFillEnd) := ⟨rfl, fun h => absurd h Bool.false_ne_true, fun h => absurd h Bool.false_ne_true⟩
theorem Sys2Proof.Laws.Length.victimStop : Statement (.victimStop) := ⟨rfl, fun h => absurd h Bool.false_ne_true, fun h => absurd h Bool.false_ne_true⟩
theorem Sys2Proof.Laws.Length.displacementTimeout : Statement (.displacementTimeout) := ⟨rfl, fun h => absurd h Bool.false_ne_true, fun h => absurd h Bool.false_ne_true⟩
theorem Sys2Proof.Laws.Length.jobResume : Statement (.jobResume) := ⟨rfl, fun h => absurd h Bool.false_ne_true, fun h => absurd h Bool.false_ne_true⟩
theorem Sys2Proof.Laws.Length.oasisAccessArrival : Statement (.oasisAccessArrival) := ⟨rfl, fun h => absurd h Bool.false_ne_true, fun h => absurd h Bool.false_ne_true⟩
theorem Sys2Proof.Laws.Length.oasisStoreBufferDrain : Statement (.oasisStoreBufferDrain) := ⟨rfl, fun h => absurd h Bool.false_ne_true, fun h => absurd h Bool.false_ne_true⟩
theorem Sys2Proof.Laws.Length.partitionForm : Statement (.partitionForm) := ⟨rfl, fun h => absurd h Bool.false_ne_true, fun h => absurd h Bool.false_ne_true⟩
theorem Sys2Proof.Laws.Length.partitionDissolve : Statement (.partitionDissolve) := ⟨rfl, fun h => absurd h Bool.false_ne_true, fun h => absurd h Bool.false_ne_true⟩
theorem Sys2Proof.Laws.Length.alignPartitions : Statement (.alignPartitions) := ⟨rfl, fun h => absurd h Bool.false_ne_true, fun h => absurd h Bool.false_ne_true⟩
theorem Sys2Proof.Laws.Length.slotmapTakeEffect : Statement (.slotmapTakeEffect) := ⟨rfl, fun h => absurd h Bool.false_ne_true, fun h => absurd h Bool.false_ne_true⟩
theorem Sys2Proof.Laws.Length.packetFetch : Statement (.packetFetch) := ⟨rfl, fun h => absurd h Bool.false_ne_true, fun h => absurd h Bool.false_ne_true⟩
theorem Sys2Proof.Laws.Length.packetRefetch : Statement (.packetRefetch) := ⟨rfl, fun h => absurd h Bool.false_ne_true, fun h => absurd h Bool.false_ne_true⟩
theorem Sys2Proof.Laws.Length.packetLaunch : Statement (.packetLaunch) := ⟨rfl, fun h => absurd h Bool.false_ne_true, fun h => absurd h Bool.false_ne_true⟩
theorem Sys2Proof.Laws.Length.launchPlacement : Statement (.launchPlacement) := ⟨rfl, fun h => absurd h Bool.false_ne_true, fun h => absurd h Bool.false_ne_true⟩
theorem Sys2Proof.Laws.Length.packetGraph : Statement (.packetGraph) := ⟨rfl, fun h => absurd h Bool.false_ne_true, fun h => absurd h Bool.false_ne_true⟩
theorem Sys2Proof.Laws.Length.packetCopy : Statement (.packetCopy) := ⟨rfl, fun h => absurd h Bool.false_ne_true, fun h => absurd h Bool.false_ne_true⟩
theorem Sys2Proof.Laws.Length.packetWait : Statement (.packetWait) := ⟨rfl, fun h => absurd h Bool.false_ne_true, fun h => absurd h Bool.false_ne_true⟩
theorem Sys2Proof.Laws.Length.packetSignal : Statement (.packetSignal) := ⟨rfl, fun h => absurd h Bool.false_ne_true, fun h => absurd h Bool.false_ne_true⟩
theorem Sys2Proof.Laws.Length.packetFence : Statement (.packetFence) := ⟨rfl, fun h => absurd h Bool.false_ne_true, fun h => absurd h Bool.false_ne_true⟩
theorem Sys2Proof.Laws.Length.interruptSend : Statement (.interruptSend) := ⟨rfl, fun h => absurd h Bool.false_ne_true, fun h => absurd h Bool.false_ne_true⟩
theorem Sys2Proof.Laws.Length.graphNodeStart : Statement (.graphNodeStart) := ⟨rfl, fun h => absurd h Bool.false_ne_true, fun h => absurd h Bool.false_ne_true⟩
theorem Sys2Proof.Laws.Length.waitNodePoll : Statement (.waitNodePoll) := ⟨rfl, fun h => absurd h Bool.false_ne_true, fun h => absurd h Bool.false_ne_true⟩
theorem Sys2Proof.Laws.Length.copyNodeDone : Statement (.copyNodeDone) := ⟨rfl, fun h => absurd h Bool.false_ne_true, fun h => absurd h Bool.false_ne_true⟩
theorem Sys2Proof.Laws.Length.signalNodeDone : Statement (.signalNodeDone) := ⟨rfl, fun h => absurd h Bool.false_ne_true, fun h => absurd h Bool.false_ne_true⟩
theorem Sys2Proof.Laws.Length.localStart : Statement (.localStart) := ⟨rfl, fun h => absurd h Bool.false_ne_true, fun h => absurd h Bool.false_ne_true⟩
theorem Sys2Proof.Laws.Length.stealProbe : Statement (.stealProbe) := ⟨rfl, fun h => absurd h Bool.false_ne_true, fun h => absurd h Bool.false_ne_true⟩
theorem Sys2Proof.Laws.Length.stealProbeComplete : Statement (.stealProbeComplete) := ⟨rfl, fun h => absurd h Bool.false_ne_true, fun h => absurd h Bool.false_ne_true⟩
theorem Sys2Proof.Laws.Length.caravanAdmission : Statement (.caravanAdmission) := ⟨rfl, fun h => absurd h Bool.false_ne_true, fun h => absurd h Bool.false_ne_true⟩
theorem Sys2Proof.Laws.Length.caravanReturnHome : Statement (.caravanReturnHome) := ⟨rfl, fun h => absurd h Bool.false_ne_true, fun h => absurd h Bool.false_ne_true⟩
theorem Sys2Proof.Laws.Length.caravanLost : Statement (.caravanLost) := ⟨rfl, fun h => absurd h Bool.false_ne_true, fun h => absurd h Bool.false_ne_true⟩
theorem Sys2Proof.Laws.Length.messageArrival : Statement (.messageArrival) := ⟨rfl, fun h => absurd h Bool.false_ne_true, fun h => absurd h Bool.false_ne_true⟩
theorem Sys2Proof.Laws.Length.messageDeposit : Statement (.messageDeposit) := ⟨rfl, fun h => absurd h Bool.false_ne_true, fun h => absurd h Bool.false_ne_true⟩
theorem Sys2Proof.Laws.Length.sendReply : Statement (.sendReply) := ⟨rfl, fun h => absurd h Bool.false_ne_true, fun h => absurd h Bool.false_ne_true⟩
theorem Sys2Proof.Laws.Length.mcastAck : Statement (.mcastAck) := ⟨rfl, fun h => absurd h Bool.false_ne_true, fun h => absurd h Bool.false_ne_true⟩
theorem Sys2Proof.Laws.Length.remoteUpdateApply : Statement (.remoteUpdateApply) := ⟨rfl, fun h => absurd h Bool.false_ne_true, fun h => absurd h Bool.false_ne_true⟩
theorem Sys2Proof.Laws.Length.waitcWake : Statement (.waitcWake) := ⟨rfl, fun h => absurd h Bool.false_ne_true, fun h => absurd h Bool.false_ne_true⟩
theorem Sys2Proof.Laws.Length.joinRelease : Statement (.joinRelease) := ⟨rfl, fun h => absurd h Bool.false_ne_true, fun h => absurd h Bool.false_ne_true⟩
theorem Sys2Proof.Laws.Length.threadLoadReply : Statement (.threadLoadReply) := ⟨rfl, fun h => absurd h Bool.false_ne_true, fun h => absurd h Bool.false_ne_true⟩
theorem Sys2Proof.Laws.Length.storePerformed : Statement (.storePerformed) := ⟨rfl, fun h => absurd h Bool.false_ne_true, fun h => absurd h Bool.false_ne_true⟩
theorem Sys2Proof.Laws.Length.atomicReply : Statement (.atomicReply) := ⟨rfl, fun h => absurd h Bool.false_ne_true, fun h => absurd h Bool.false_ne_true⟩
theorem Sys2Proof.Laws.Length.windowStoreAck : Statement (.windowStoreAck) := ⟨rfl, fun h => absurd h Bool.false_ne_true, fun h => absurd h Bool.false_ne_true⟩
theorem Sys2Proof.Laws.Length.translationWalk : Statement (.translationWalk) := ⟨rfl, fun h => absurd h Bool.false_ne_true, fun h => absurd h Bool.false_ne_true⟩
theorem Sys2Proof.Laws.Length.sharedUnitGrant : Statement (.sharedUnitGrant) := ⟨rfl, fun h => absurd h Bool.false_ne_true, fun h => absurd h Bool.false_ne_true⟩
theorem Sys2Proof.Laws.Length.maintenanceWalkDone : Statement (.maintenanceWalkDone) := ⟨rfl, fun h => absurd h Bool.false_ne_true, fun h => absurd h Bool.false_ne_true⟩
theorem Sys2Proof.Laws.Length.drainComplete : Statement (.drainComplete) := ⟨rfl, fun h => absurd h Bool.false_ne_true, fun h => absurd h Bool.false_ne_true⟩
theorem Sys2Proof.Laws.Length.xinvComplete : Statement (.xinvComplete) := ⟨rfl, fun h => absurd h Bool.false_ne_true, fun h => absurd h Bool.false_ne_true⟩
theorem Sys2Proof.Laws.Length.sallocReply : Statement (.sallocReply) := ⟨rfl, fun h => absurd h Bool.false_ne_true, fun h => absurd h Bool.false_ne_true⟩
theorem Sys2Proof.Laws.Length.sfreeReply : Statement (.sfreeReply) := ⟨rfl, fun h => absurd h Bool.false_ne_true, fun h => absurd h Bool.false_ne_true⟩
theorem Sys2Proof.Laws.Length.dotmComplete : Statement (.dotmComplete) := ⟨rfl, fun h => absurd h Bool.false_ne_true, fun h => absurd h Bool.false_ne_true⟩
theorem Sys2Proof.Laws.Length.engineCommandStart : Statement (.engineCommandStart) := ⟨rfl, fun h => absurd h Bool.false_ne_true, fun h => absurd h Bool.false_ne_true⟩
theorem Sys2Proof.Laws.Length.copyCommandComplete : Statement (.copyCommandComplete) := ⟨rfl, fun h => absurd h Bool.false_ne_true, fun h => absurd h Bool.false_ne_true⟩
theorem Sys2Proof.Laws.Length.gatherElementPush : Statement (.gatherElementPush) := ⟨rfl, fun h => absurd h Bool.false_ne_true, fun h => absurd h Bool.false_ne_true⟩
theorem Sys2Proof.Laws.Length.collectiveComplete : Statement (.collectiveComplete) := ⟨rfl, fun h => absurd h Bool.false_ne_true, fun h => absurd h Bool.false_ne_true⟩
theorem Sys2Proof.Laws.Length.terminationWave : Statement (.terminationWave) := ⟨rfl, fun h => absurd h Bool.false_ne_true, fun h => absurd h Bool.false_ne_true⟩
theorem Sys2Proof.Laws.Length.jobDoneReport : Statement (.jobDoneReport) := ⟨rfl, fun h => absurd h Bool.false_ne_true, fun h => absurd h Bool.false_ne_true⟩
theorem Sys2Proof.Laws.Length.jobDeadlockReport : Statement (.jobDeadlockReport) := ⟨rfl, fun h => absurd h Bool.false_ne_true, fun h => absurd h Bool.false_ne_true⟩
theorem Sys2Proof.Laws.Length.wakeWrite : Statement (.wakeWrite) := ⟨rfl, fun h => absurd h Bool.false_ne_true, fun h => absurd h Bool.false_ne_true⟩
theorem Sys2Proof.Laws.Length.qctlResume : Statement (.qctlResume) := ⟨rfl, fun h => absurd h Bool.false_ne_true, fun h => absurd h Bool.false_ne_true⟩
theorem Sys2Proof.Laws.Length.qctlSuspend : Statement (.qctlSuspend) := ⟨rfl, fun h => absurd h Bool.false_ne_true, fun h => absurd h Bool.false_ne_true⟩
theorem Sys2Proof.Laws.Length.qctlDiscard : Statement (.qctlDiscard) := ⟨rfl, fun h => absurd h Bool.false_ne_true, fun h => absurd h Bool.false_ne_true⟩
theorem Sys2Proof.Laws.Length.hostBar2Read : Statement (.hostBar2Read) := ⟨rfl, fun h => absurd h Bool.false_ne_true, fun h => absurd h Bool.false_ne_true⟩
theorem Sys2Proof.Laws.Length.hostBar2Write : Statement (.hostBar2Write) := ⟨rfl, fun h => absurd h Bool.false_ne_true, fun h => absurd h Bool.false_ne_true⟩
theorem Sys2Proof.Laws.Length.powerGateEntry : Statement (.powerGateEntry) := ⟨rfl, fun h => absurd h Bool.false_ne_true, fun h => absurd h Bool.false_ne_true⟩
theorem Sys2Proof.Laws.Length.wakeSequenceEnd : Statement (.wakeSequenceEnd) := ⟨rfl, fun h => absurd h Bool.false_ne_true, fun h => absurd h Bool.false_ne_true⟩
theorem Sys2Proof.Laws.Length.supplyFault : Statement (.supplyFault) := ⟨rfl, fun h => absurd h Bool.false_ne_true, fun h => absurd h Bool.false_ne_true⟩
theorem Sys2Proof.Laws.Length.powerOnBoot : Statement (.powerOnBoot) := ⟨rfl, fun h => absurd h Bool.false_ne_true, fun h => absurd h Bool.false_ne_true⟩
theorem Sys2Proof.Laws.Length.sidebandReadStatus : Statement (.sidebandReadStatus) := ⟨rfl, fun h => absurd h Bool.false_ne_true, fun h => absurd h Bool.false_ne_true⟩
theorem Sys2Proof.Laws.Length.sidebandSetPower : Statement (.sidebandSetPower) := ⟨rfl, fun h => absurd h Bool.false_ne_true, fun h => absurd h Bool.false_ne_true⟩
theorem Sys2Proof.Laws.Length.sidebandNameSnapshot : Statement (.sidebandNameSnapshot) := ⟨rfl, fun h => absurd h Bool.false_ne_true, fun h => absurd h Bool.false_ne_true⟩
theorem Sys2Proof.Laws.Length.sidebandClearFault : Statement (.sidebandClearFault) := ⟨rfl, fun h => absurd h Bool.false_ne_true, fun h => absurd h Bool.false_ne_true⟩
theorem Sys2Proof.Laws.Length.sidebandAttest : Statement (.sidebandAttest) := ⟨rfl, fun h => absurd h Bool.false_ne_true, fun h => absurd h Bool.false_ne_true⟩
theorem Sys2Proof.Laws.Length.snapshotCapture : Statement (.snapshotCapture) := ⟨rfl, fun h => absurd h Bool.false_ne_true, fun h => absurd h Bool.false_ne_true⟩
theorem Sys2Proof.Laws.Length.firewallReload : Statement (.firewallReload) := ⟨rfl, fun h => absurd h Bool.false_ne_true, fun h => absurd h Bool.false_ne_true⟩
theorem Sys2Proof.Laws.Length.switchLossNotice : Statement (.switchLossNotice) := ⟨rfl, fun h => absurd h Bool.false_ne_true, fun h => absurd h Bool.false_ne_true⟩
theorem Sys2Proof.Laws.Length.portLossNotice : Statement (.portLossNotice) := ⟨rfl, fun h => absurd h Bool.false_ne_true, fun h => absurd h Bool.false_ne_true⟩
theorem Sys2Proof.Laws.Length.switchReadmission : Statement (.switchReadmission) := ⟨rfl, fun h => absurd h Bool.false_ne_true, fun h => absurd h Bool.false_ne_true⟩
theorem Sys2Proof.Laws.Length.mirrorFillDone : Statement (.mirrorFillDone) := ⟨rfl, fun h => absurd h Bool.false_ne_true, fun h => absurd h Bool.false_ne_true⟩
theorem Sys2Proof.Laws.Length.flitReplay : Statement (.flitReplay) := ⟨rfl, fun h => absurd h Bool.false_ne_true, fun h => absurd h Bool.false_ne_true⟩
theorem Sys2Proof.Laws.Length.packetStomp : Statement (.packetStomp) := ⟨rfl, fun h => absurd h Bool.false_ne_true, fun h => absurd h Bool.false_ne_true⟩
theorem Sys2Proof.Laws.Length.linkDown : Statement (.linkDown) := ⟨rfl, fun h => absurd h Bool.false_ne_true, fun h => absurd h Bool.false_ne_true⟩
theorem Sys2Proof.Laws.Length.fabricPacketReceive : Statement (.fabricPacketReceive) := ⟨rfl, fun h => absurd h Bool.false_ne_true, fun h => absurd h Bool.false_ne_true⟩
theorem Sys2Proof.Laws.Length.controlFlit : Statement (.controlFlit) := ⟨rfl, fun h => absurd h Bool.false_ne_true, fun h => absurd h Bool.false_ne_true⟩
theorem Sys2Proof.Laws.Length.keySlotLoad : Statement (.keySlotLoad) := ⟨rfl, fun h => absurd h Bool.false_ne_true, fun h => absurd h Bool.false_ne_true⟩
theorem Sys2Proof.Laws.Length.keySlotZero : Statement (.keySlotZero) := ⟨rfl, fun h => absurd h Bool.false_ne_true, fun h => absurd h Bool.false_ne_true⟩
theorem Sys2Proof.Laws.Length.nonceCounterWrap : Statement (.nonceCounterWrap) := ⟨rfl, fun h => absurd h Bool.false_ne_true, fun h => absurd h Bool.false_ne_true⟩
theorem Sys2Proof.Laws.Length.ueWorkRequest : Statement (.ueWorkRequest) := ⟨rfl, fun h => absurd h Bool.false_ne_true, fun h => absurd h Bool.false_ne_true⟩
theorem Sys2Proof.Laws.Length.uePacketReceive : Statement (.uePacketReceive) := ⟨rfl, fun h => absurd h Bool.false_ne_true, fun h => absurd h Bool.false_ne_true⟩
theorem Sys2Proof.Laws.Length.interleavePending : Statement (.interleavePending) := ⟨rfl, fun h => absurd h Bool.false_ne_true, fun h => absurd h Bool.false_ne_true⟩
theorem Sys2Proof.Laws.Length.interleaveAdopt : Statement (.interleaveAdopt) := ⟨rfl, fun h => absurd h Bool.false_ne_true, fun h => absurd h Bool.false_ne_true⟩
theorem Sys2Proof.Laws.Length.movedReplay : Statement (.movedReplay) := ⟨rfl, fun h => absurd h Bool.false_ne_true, fun h => absurd h Bool.false_ne_true⟩
theorem Sys2Proof.Laws.Length.illegalInstruction : Statement (.illegalInstruction) := ⟨rfl, fun h => absurd h Bool.false_ne_true, fun h => absurd h Bool.false_ne_true⟩
theorem Sys2Proof.Laws.Length.illegalWord : Statement (.illegalWord) := ⟨rfl, fun h => absurd h Bool.false_ne_true, fun h => absurd h Bool.false_ne_true⟩
theorem Sys2Proof.Laws.Length.fetchFault : Statement (.fetchFault) := ⟨rfl, fun h => absurd h Bool.false_ne_true, fun h => absurd h Bool.false_ne_true⟩
theorem Sys2Proof.Laws.Length.runOff : Statement (.runOff) := ⟨rfl, fun h => absurd h Bool.false_ne_true, fun h => absurd h Bool.false_ne_true⟩
theorem Sys2Proof.Laws.Length.pinnedEntryAccept : Statement (.pinnedEntryAccept) := ⟨rfl, fun h => absurd h Bool.false_ne_true, fun h => absurd h Bool.false_ne_true⟩
theorem Sys2Proof.Laws.Length.portLossClear : Statement (.portLossClear) := ⟨rfl, fun h => absurd h Bool.false_ne_true, fun h => absurd h Bool.false_ne_true⟩
theorem Sys2Proof.Laws.Length.linkRetrainDone : Statement (.linkRetrainDone) := ⟨rfl, fun h => absurd h Bool.false_ne_true, fun h => absurd h Bool.false_ne_true⟩
theorem Sys2Proof.Laws.Length.partitionDealign : Statement (.partitionDealign) := ⟨rfl, fun h => absurd h Bool.false_ne_true, fun h => absurd h Bool.false_ne_true⟩
theorem Sys2Proof.Laws.Length.snapshotWriteDone : Statement (.snapshotWriteDone) := ⟨rfl, fun h => absurd h Bool.false_ne_true, fun h => absurd h Bool.false_ne_true⟩
theorem Sys2Proof.Laws.Length.ueRetriesExhausted : Statement (.ueRetriesExhausted) := ⟨rfl, fun h => absurd h Bool.false_ne_true, fun h => absurd h Bool.false_ne_true⟩
theorem Sys2Proof.Laws.Length.hostLinkTraining : Statement (.hostLinkTraining) := ⟨rfl, fun h => absurd h Bool.false_ne_true, fun h => absurd h Bool.false_ne_true⟩
theorem Sys2Proof.Laws.Length.quotaChange : Statement (.quotaChange) := ⟨rfl, fun h => absurd h Bool.false_ne_true, fun h => absurd h Bool.false_ne_true⟩
theorem Sys2Proof.Laws.Length.domainFormation : Statement (.domainFormation) := ⟨rfl, fun h => absurd h Bool.false_ne_true, fun h => absurd h Bool.false_ne_true⟩
end

