-- ==== Sys2Proof/Laws/State.lean ====
section
/-! SUPPORT. What each update of the state leaves as it was, field by field, and what the tables answer after it. -/

namespace Sys2Proof.Machine

/-! ## Fields an update does not touch -/

@[simp] theorem State.setCore_wcc (s : State) (c : CoreRef) (v : Core) : (s.setCore c v).wcc = s.wcc := rfl
@[simp] theorem State.setCore_ctxs (s : State) (c : CoreRef) (v : Core) : (s.setCore c v).ctxs = s.ctxs := rfl
@[simp] theorem State.setCore_pool (s : State) (c : CoreRef) (v : Core) : (s.setCore c v).pool = s.pool := rfl
@[simp] theorem State.setCore_devs (s : State) (c : CoreRef) (v : Core) : (s.setCore c v).devs = s.devs := rfl
@[simp] theorem State.setCore_dram (s : State) (c : CoreRef) (v : Core) : (s.setCore c v).dram = s.dram := rfl
@[simp] theorem State.setCore_dirty (s : State) (c : CoreRef) (v : Core) : (s.setCore c v).dirty = s.dirty := rfl
@[simp] theorem State.setCore_pipes (s : State) (c : CoreRef) (v : Core) : (s.setCore c v).pipes = s.pipes := rfl
@[simp] theorem State.setCore_streams (s : State) (c : CoreRef) (v : Core) : (s.setCore c v).streams = s.streams := rfl
@[simp] theorem State.setCore_wbuf (s : State) (c : CoreRef) (v : Core) : (s.setCore c v).wbuf = s.wbuf := rfl
@[simp] theorem State.setCore_abuf (s : State) (c : CoreRef) (v : Core) : (s.setCore c v).abuf = s.abuf := rfl
@[simp] theorem State.setCore_slots (s : State) (c : CoreRef) (v : Core) : (s.setCore c v).slots = s.slots := rfl
@[simp] theorem State.setCore_parts (s : State) (c : CoreRef) (v : Core) : (s.setCore c v).parts = s.parts := rfl
@[simp] theorem State.setCore_jobs (s : State) (c : CoreRef) (v : Core) : (s.setCore c v).jobs = s.jobs := rfl
@[simp] theorem State.setCore_tjobs (s : State) (c : CoreRef) (v : Core) : (s.setCore c v).tjobs = s.tjobs := rfl
@[simp] theorem State.setCore_graphs (s : State) (c : CoreRef) (v : Core) : (s.setCore c v).graphs = s.graphs := rfl
@[simp] theorem State.setCore_queues (s : State) (c : CoreRef) (v : Core) : (s.setCore c v).queues = s.queues := rfl
@[simp] theorem State.setCore_switches (s : State) (c : CoreRef) (v : Core) : (s.setCore c v).switches = s.switches := rfl
@[simp] theorem State.setCore_allocs (s : State) (c : CoreRef) (v : Core) : (s.setCore c v).allocs = s.allocs := rfl
@[simp] theorem State.setCore_tier (s : State) (c : CoreRef) (v : Core) : (s.setCore c v).tier = s.tier := rfl
@[simp] theorem State.setCore_flash (s : State) (c : CoreRef) (v : Core) : (s.setCore c v).flash = s.flash := rfl
@[simp] theorem State.setCore_agenda (s : State) (c : CoreRef) (v : Core) : (s.setCore c v).agenda = s.agenda := rfl
@[simp] theorem State.setCore_ev (s : State) (c : CoreRef) (v : Core) : (s.setCore c v).ev = s.ev := rfl
@[simp] theorem State.setCore_fresh (s : State) (c : CoreRef) (v : Core) : (s.setCore c v).fresh = s.fresh := rfl
@[simp] theorem State.setCore_serial (s : State) (c : CoreRef) (v : Core) : (s.setCore c v).serial = s.serial := rfl
@[simp] theorem State.setCore_tf (s : State) (c : CoreRef) (v : Core) : (s.setCore c v).tf = s.tf := rfl
@[simp] theorem State.setCore_sf (s : State) (c : CoreRef) (v : Core) : (s.setCore c v).sf = s.sf := rfl
@[simp] theorem State.setCore_phase (s : State) (c : CoreRef) (v : Core) : (s.setCore c v).phase = s.phase := rfl

@[simp] theorem State.setCtx_wcc (s : State) (t : CtxRef) (v : Ctx) : (s.setCtx t v).wcc = s.wcc := rfl
@[simp] theorem State.setCtx_cores (s : State) (t : CtxRef) (v : Ctx) : (s.setCtx t v).cores = s.cores := rfl
@[simp] theorem State.setCtx_pool (s : State) (t : CtxRef) (v : Ctx) : (s.setCtx t v).pool = s.pool := rfl
@[simp] theorem State.setCtx_devs (s : State) (t : CtxRef) (v : Ctx) : (s.setCtx t v).devs = s.devs := rfl
@[simp] theorem State.setCtx_dram (s : State) (t : CtxRef) (v : Ctx) : (s.setCtx t v).dram = s.dram := rfl
@[simp] theorem State.setCtx_dirty (s : State) (t : CtxRef) (v : Ctx) : (s.setCtx t v).dirty = s.dirty := rfl
@[simp] theorem State.setCtx_pipes (s : State) (t : CtxRef) (v : Ctx) : (s.setCtx t v).pipes = s.pipes := rfl
@[simp] theorem State.setCtx_streams (s : State) (t : CtxRef) (v : Ctx) : (s.setCtx t v).streams = s.streams := rfl
@[simp] theorem State.setCtx_wbuf (s : State) (t : CtxRef) (v : Ctx) : (s.setCtx t v).wbuf = s.wbuf := rfl
@[simp] theorem State.setCtx_abuf (s : State) (t : CtxRef) (v : Ctx) : (s.setCtx t v).abuf = s.abuf := rfl
@[simp] theorem State.setCtx_slots (s : State) (t : CtxRef) (v : Ctx) : (s.setCtx t v).slots = s.slots := rfl
@[simp] theorem State.setCtx_parts (s : State) (t : CtxRef) (v : Ctx) : (s.setCtx t v).parts = s.parts := rfl
@[simp] theorem State.setCtx_jobs (s : State) (t : CtxRef) (v : Ctx) : (s.setCtx t v).jobs = s.jobs := rfl
@[simp] theorem State.setCtx_tjobs (s : State) (t : CtxRef) (v : Ctx) : (s.setCtx t v).tjobs = s.tjobs := rfl
@[simp] theorem State.setCtx_graphs (s : State) (t : CtxRef) (v : Ctx) : (s.setCtx t v).graphs = s.graphs := rfl
@[simp] theorem State.setCtx_queues (s : State) (t : CtxRef) (v : Ctx) : (s.setCtx t v).queues = s.queues := rfl
@[simp] theorem State.setCtx_switches (s : State) (t : CtxRef) (v : Ctx) : (s.setCtx t v).switches = s.switches := rfl
@[simp] theorem State.setCtx_allocs (s : State) (t : CtxRef) (v : Ctx) : (s.setCtx t v).allocs = s.allocs := rfl
@[simp] theorem State.setCtx_tier (s : State) (t : CtxRef) (v : Ctx) : (s.setCtx t v).tier = s.tier := rfl
@[simp] theorem State.setCtx_flash (s : State) (t : CtxRef) (v : Ctx) : (s.setCtx t v).flash = s.flash := rfl
@[simp] theorem State.setCtx_agenda (s : State) (t : CtxRef) (v : Ctx) : (s.setCtx t v).agenda = s.agenda := rfl
@[simp] theorem State.setCtx_ev (s : State) (t : CtxRef) (v : Ctx) : (s.setCtx t v).ev = s.ev := rfl
@[simp] theorem State.setCtx_fresh (s : State) (t : CtxRef) (v : Ctx) : (s.setCtx t v).fresh = s.fresh := rfl
@[simp] theorem State.setCtx_serial (s : State) (t : CtxRef) (v : Ctx) : (s.setCtx t v).serial = s.serial := rfl
@[simp] theorem State.setCtx_tf (s : State) (t : CtxRef) (v : Ctx) : (s.setCtx t v).tf = s.tf := rfl
@[simp] theorem State.setCtx_sf (s : State) (t : CtxRef) (v : Ctx) : (s.setCtx t v).sf = s.sf := rfl
@[simp] theorem State.setCtx_phase (s : State) (t : CtxRef) (v : Ctx) : (s.setCtx t v).phase = s.phase := rfl

@[simp] theorem State.modCore_wcc (s : State) (c : CoreRef) (f : Core → Core) : (s.modCore c f).wcc = s.wcc := rfl
@[simp] theorem State.modCore_ctxs (s : State) (c : CoreRef) (f : Core → Core) : (s.modCore c f).ctxs = s.ctxs := rfl
@[simp] theorem State.modCore_pool (s : State) (c : CoreRef) (f : Core → Core) : (s.modCore c f).pool = s.pool := rfl
@[simp] theorem State.modCore_devs (s : State) (c : CoreRef) (f : Core → Core) : (s.modCore c f).devs = s.devs := rfl
@[simp] theorem State.modCore_dram (s : State) (c : CoreRef) (f : Core → Core) : (s.modCore c f).dram = s.dram := rfl
@[simp] theorem State.modCore_dirty (s : State) (c : CoreRef) (f : Core → Core) : (s.modCore c f).dirty = s.dirty := rfl
@[simp] theorem State.modCore_pipes (s : State) (c : CoreRef) (f : Core → Core) : (s.modCore c f).pipes = s.pipes := rfl
@[simp] theorem State.modCore_streams (s : State) (c : CoreRef) (f : Core → Core) : (s.modCore c f).streams = s.streams := rfl
@[simp] theorem State.modCore_wbuf (s : State) (c : CoreRef) (f : Core → Core) : (s.modCore c f).wbuf = s.wbuf := rfl
@[simp] theorem State.modCore_abuf (s : State) (c : CoreRef) (f : Core → Core) : (s.modCore c f).abuf = s.abuf := rfl
@[simp] theorem State.modCore_slots (s : State) (c : CoreRef) (f : Core → Core) : (s.modCore c f).slots = s.slots := rfl
@[simp] theorem State.modCore_parts (s : State) (c : CoreRef) (f : Core → Core) : (s.modCore c f).parts = s.parts := rfl
@[simp] theorem State.modCore_jobs (s : State) (c : CoreRef) (f : Core → Core) : (s.modCore c f).jobs = s.jobs := rfl
@[simp] theorem State.modCore_tjobs (s : State) (c : CoreRef) (f : Core → Core) : (s.modCore c f).tjobs = s.tjobs := rfl
@[simp] theorem State.modCore_graphs (s : State) (c : CoreRef) (f : Core → Core) : (s.modCore c f).graphs = s.graphs := rfl
@[simp] theorem State.modCore_queues (s : State) (c : CoreRef) (f : Core → Core) : (s.modCore c f).queues = s.queues := rfl
@[simp] theorem State.modCore_switches (s : State) (c : CoreRef) (f : Core → Core) : (s.modCore c f).switches = s.switches := rfl
@[simp] theorem State.modCore_allocs (s : State) (c : CoreRef) (f : Core → Core) : (s.modCore c f).allocs = s.allocs := rfl
@[simp] theorem State.modCore_tier (s : State) (c : CoreRef) (f : Core → Core) : (s.modCore c f).tier = s.tier := rfl
@[simp] theorem State.modCore_flash (s : State) (c : CoreRef) (f : Core → Core) : (s.modCore c f).flash = s.flash := rfl
@[simp] theorem State.modCore_agenda (s : State) (c : CoreRef) (f : Core → Core) : (s.modCore c f).agenda = s.agenda := rfl
@[simp] theorem State.modCore_ev (s : State) (c : CoreRef) (f : Core → Core) : (s.modCore c f).ev = s.ev := rfl
@[simp] theorem State.modCore_fresh (s : State) (c : CoreRef) (f : Core → Core) : (s.modCore c f).fresh = s.fresh := rfl
@[simp] theorem State.modCore_serial (s : State) (c : CoreRef) (f : Core → Core) : (s.modCore c f).serial = s.serial := rfl
@[simp] theorem State.modCore_tf (s : State) (c : CoreRef) (f : Core → Core) : (s.modCore c f).tf = s.tf := rfl
@[simp] theorem State.modCore_sf (s : State) (c : CoreRef) (f : Core → Core) : (s.modCore c f).sf = s.sf := rfl
@[simp] theorem State.modCore_phase (s : State) (c : CoreRef) (f : Core → Core) : (s.modCore c f).phase = s.phase := rfl

@[simp] theorem State.modCtx_wcc (s : State) (t : CtxRef) (f : Ctx → Ctx) : (s.modCtx t f).wcc = s.wcc := rfl
@[simp] theorem State.modCtx_cores (s : State) (t : CtxRef) (f : Ctx → Ctx) : (s.modCtx t f).cores = s.cores := rfl
@[simp] theorem State.modCtx_pool (s : State) (t : CtxRef) (f : Ctx → Ctx) : (s.modCtx t f).pool = s.pool := rfl
@[simp] theorem State.modCtx_devs (s : State) (t : CtxRef) (f : Ctx → Ctx) : (s.modCtx t f).devs = s.devs := rfl
@[simp] theorem State.modCtx_dram (s : State) (t : CtxRef) (f : Ctx → Ctx) : (s.modCtx t f).dram = s.dram := rfl
@[simp] theorem State.modCtx_dirty (s : State) (t : CtxRef) (f : Ctx → Ctx) : (s.modCtx t f).dirty = s.dirty := rfl
@[simp] theorem State.modCtx_pipes (s : State) (t : CtxRef) (f : Ctx → Ctx) : (s.modCtx t f).pipes = s.pipes := rfl
@[simp] theorem State.modCtx_streams (s : State) (t : CtxRef) (f : Ctx → Ctx) : (s.modCtx t f).streams = s.streams := rfl
@[simp] theorem State.modCtx_wbuf (s : State) (t : CtxRef) (f : Ctx → Ctx) : (s.modCtx t f).wbuf = s.wbuf := rfl
@[simp] theorem State.modCtx_abuf (s : State) (t : CtxRef) (f : Ctx → Ctx) : (s.modCtx t f).abuf = s.abuf := rfl
@[simp] theorem State.modCtx_slots (s : State) (t : CtxRef) (f : Ctx → Ctx) : (s.modCtx t f).slots = s.slots := rfl
@[simp] theorem State.modCtx_parts (s : State) (t : CtxRef) (f : Ctx → Ctx) : (s.modCtx t f).parts = s.parts := rfl
@[simp] theorem State.modCtx_jobs (s : State) (t : CtxRef) (f : Ctx → Ctx) : (s.modCtx t f).jobs = s.jobs := rfl
@[simp] theorem State.modCtx_tjobs (s : State) (t : CtxRef) (f : Ctx → Ctx) : (s.modCtx t f).tjobs = s.tjobs := rfl
@[simp] theorem State.modCtx_graphs (s : State) (t : CtxRef) (f : Ctx → Ctx) : (s.modCtx t f).graphs = s.graphs := rfl
@[simp] theorem State.modCtx_queues (s : State) (t : CtxRef) (f : Ctx → Ctx) : (s.modCtx t f).queues = s.queues := rfl
@[simp] theorem State.modCtx_switches (s : State) (t : CtxRef) (f : Ctx → Ctx) : (s.modCtx t f).switches = s.switches := rfl
@[simp] theorem State.modCtx_allocs (s : State) (t : CtxRef) (f : Ctx → Ctx) : (s.modCtx t f).allocs = s.allocs := rfl
@[simp] theorem State.modCtx_tier (s : State) (t : CtxRef) (f : Ctx → Ctx) : (s.modCtx t f).tier = s.tier := rfl
@[simp] theorem State.modCtx_flash (s : State) (t : CtxRef) (f : Ctx → Ctx) : (s.modCtx t f).flash = s.flash := rfl
@[simp] theorem State.modCtx_agenda (s : State) (t : CtxRef) (f : Ctx → Ctx) : (s.modCtx t f).agenda = s.agenda := rfl
@[simp] theorem State.modCtx_ev (s : State) (t : CtxRef) (f : Ctx → Ctx) : (s.modCtx t f).ev = s.ev := rfl
@[simp] theorem State.modCtx_fresh (s : State) (t : CtxRef) (f : Ctx → Ctx) : (s.modCtx t f).fresh = s.fresh := rfl
@[simp] theorem State.modCtx_serial (s : State) (t : CtxRef) (f : Ctx → Ctx) : (s.modCtx t f).serial = s.serial := rfl
@[simp] theorem State.modCtx_tf (s : State) (t : CtxRef) (f : Ctx → Ctx) : (s.modCtx t f).tf = s.tf := rfl
@[simp] theorem State.modCtx_sf (s : State) (t : CtxRef) (f : Ctx → Ctx) : (s.modCtx t f).sf = s.sf := rfl
@[simp] theorem State.modCtx_phase (s : State) (t : CtxRef) (f : Ctx → Ctx) : (s.modCtx t f).phase = s.phase := rfl

@[simp] theorem State.setRegOf_wcc (s : State) (t : CtxRef) (r : Nat) (v : Word) : (s.setRegOf t r v).wcc = s.wcc := rfl
@[simp] theorem State.setRegOf_cores (s : State) (t : CtxRef) (r : Nat) (v : Word) : (s.setRegOf t r v).cores = s.cores := rfl
@[simp] theorem State.setRegOf_ctxs (s : State) (t : CtxRef) (r : Nat) (v : Word) : (s.setRegOf t r v).ctxs = s.ctxs := rfl
@[simp] theorem State.setRegOf_devs (s : State) (t : CtxRef) (r : Nat) (v : Word) : (s.setRegOf t r v).devs = s.devs := rfl
@[simp] theorem State.setRegOf_dram (s : State) (t : CtxRef) (r : Nat) (v : Word) : (s.setRegOf t r v).dram = s.dram := rfl
@[simp] theorem State.setRegOf_dirty (s : State) (t : CtxRef) (r : Nat) (v : Word) : (s.setRegOf t r v).dirty = s.dirty := rfl
@[simp] theorem State.setRegOf_pipes (s : State) (t : CtxRef) (r : Nat) (v : Word) : (s.setRegOf t r v).pipes = s.pipes := rfl
@[simp] theorem State.setRegOf_streams (s : State) (t : CtxRef) (r : Nat) (v : Word) : (s.setRegOf t r v).streams = s.streams := rfl
@[simp] theorem State.setRegOf_wbuf (s : State) (t : CtxRef) (r : Nat) (v : Word) : (s.setRegOf t r v).wbuf = s.wbuf := rfl
@[simp] theorem State.setRegOf_abuf (s : State) (t : CtxRef) (r : Nat) (v : Word) : (s.setRegOf t r v).abuf = s.abuf := rfl
@[simp] theorem State.setRegOf_slots (s : State) (t : CtxRef) (r : Nat) (v : Word) : (s.setRegOf t r v).slots = s.slots := rfl
@[simp] theorem State.setRegOf_parts (s : State) (t : CtxRef) (r : Nat) (v : Word) : (s.setRegOf t r v).parts = s.parts := rfl
@[simp] theorem State.setRegOf_jobs (s : State) (t : CtxRef) (r : Nat) (v : Word) : (s.setRegOf t r v).jobs = s.jobs := rfl
@[simp] theorem State.setRegOf_tjobs (s : State) (t : CtxRef) (r : Nat) (v : Word) : (s.setRegOf t r v).tjobs = s.tjobs := rfl
@[simp] theorem State.setRegOf_graphs (s : State) (t : CtxRef) (r : Nat) (v : Word) : (s.setRegOf t r v).graphs = s.graphs := rfl
@[simp] theorem State.setRegOf_queues (s : State) (t : CtxRef) (r : Nat) (v : Word) : (s.setRegOf t r v).queues = s.queues := rfl
@[simp] theorem State.setRegOf_switches (s : State) (t : CtxRef) (r : Nat) (v : Word) : (s.setRegOf t r v).switches = s.switches := rfl
@[simp] theorem State.setRegOf_allocs (s : State) (t : CtxRef) (r : Nat) (v : Word) : (s.setRegOf t r v).allocs = s.allocs := rfl
@[simp] theorem State.setRegOf_tier (s : State) (t : CtxRef) (r : Nat) (v : Word) : (s.setRegOf t r v).tier = s.tier := rfl
@[simp] theorem State.setRegOf_flash (s : State) (t : CtxRef) (r : Nat) (v : Word) : (s.setRegOf t r v).flash = s.flash := rfl
@[simp] theorem State.setRegOf_agenda (s : State) (t : CtxRef) (r : Nat) (v : Word) : (s.setRegOf t r v).agenda = s.agenda := rfl
@[simp] theorem State.setRegOf_ev (s : State) (t : CtxRef) (r : Nat) (v : Word) : (s.setRegOf t r v).ev = s.ev := rfl
@[simp] theorem State.setRegOf_fresh (s : State) (t : CtxRef) (r : Nat) (v : Word) : (s.setRegOf t r v).fresh = s.fresh := rfl
@[simp] theorem State.setRegOf_serial (s : State) (t : CtxRef) (r : Nat) (v : Word) : (s.setRegOf t r v).serial = s.serial := rfl
@[simp] theorem State.setRegOf_tf (s : State) (t : CtxRef) (r : Nat) (v : Word) : (s.setRegOf t r v).tf = s.tf := rfl
@[simp] theorem State.setRegOf_sf (s : State) (t : CtxRef) (r : Nat) (v : Word) : (s.setRegOf t r v).sf = s.sf := rfl
@[simp] theorem State.setRegOf_phase (s : State) (t : CtxRef) (r : Nat) (v : Word) : (s.setRegOf t r v).phase = s.phase := rfl

@[simp] theorem State.setReg_wcc (s : State) (r : Reg) (v : Word) : (s.setReg r v).wcc = s.wcc := rfl
@[simp] theorem State.setReg_cores (s : State) (r : Reg) (v : Word) : (s.setReg r v).cores = s.cores := rfl
@[simp] theorem State.setReg_ctxs (s : State) (r : Reg) (v : Word) : (s.setReg r v).ctxs = s.ctxs := rfl
@[simp] theorem State.setReg_devs (s : State) (r : Reg) (v : Word) : (s.setReg r v).devs = s.devs := rfl
@[simp] theorem State.setReg_dram (s : State) (r : Reg) (v : Word) : (s.setReg r v).dram = s.dram := rfl
@[simp] theorem State.setReg_dirty (s : State) (r : Reg) (v : Word) : (s.setReg r v).dirty = s.dirty := rfl
@[simp] theorem State.setReg_pipes (s : State) (r : Reg) (v : Word) : (s.setReg r v).pipes = s.pipes := rfl
@[simp] theorem State.setReg_streams (s : State) (r : Reg) (v : Word) : (s.setReg r v).streams = s.streams := rfl
@[simp] theorem State.setReg_wbuf (s : State) (r : Reg) (v : Word) : (s.setReg r v).wbuf = s.wbuf := rfl
@[simp] theorem State.setReg_abuf (s : State) (r : Reg) (v : Word) : (s.setReg r v).abuf = s.abuf := rfl
@[simp] theorem State.setReg_slots (s : State) (r : Reg) (v : Word) : (s.setReg r v).slots = s.slots := rfl
@[simp] theorem State.setReg_parts (s : State) (r : Reg) (v : Word) : (s.setReg r v).parts = s.parts := rfl
@[simp] theorem State.setReg_jobs (s : State) (r : Reg) (v : Word) : (s.setReg r v).jobs = s.jobs := rfl
@[simp] theorem State.setReg_tjobs (s : State) (r : Reg) (v : Word) : (s.setReg r v).tjobs = s.tjobs := rfl
@[simp] theorem State.setReg_graphs (s : State) (r : Reg) (v : Word) : (s.setReg r v).graphs = s.graphs := rfl
@[simp] theorem State.setReg_queues (s : State) (r : Reg) (v : Word) : (s.setReg r v).queues = s.queues := rfl
@[simp] theorem State.setReg_switches (s : State) (r : Reg) (v : Word) : (s.setReg r v).switches = s.switches := rfl
@[simp] theorem State.setReg_allocs (s : State) (r : Reg) (v : Word) : (s.setReg r v).allocs = s.allocs := rfl
@[simp] theorem State.setReg_tier (s : State) (r : Reg) (v : Word) : (s.setReg r v).tier = s.tier := rfl
@[simp] theorem State.setReg_flash (s : State) (r : Reg) (v : Word) : (s.setReg r v).flash = s.flash := rfl
@[simp] theorem State.setReg_agenda (s : State) (r : Reg) (v : Word) : (s.setReg r v).agenda = s.agenda := rfl
@[simp] theorem State.setReg_ev (s : State) (r : Reg) (v : Word) : (s.setReg r v).ev = s.ev := rfl
@[simp] theorem State.setReg_fresh (s : State) (r : Reg) (v : Word) : (s.setReg r v).fresh = s.fresh := rfl
@[simp] theorem State.setReg_serial (s : State) (r : Reg) (v : Word) : (s.setReg r v).serial = s.serial := rfl
@[simp] theorem State.setReg_tf (s : State) (r : Reg) (v : Word) : (s.setReg r v).tf = s.tf := rfl
@[simp] theorem State.setReg_sf (s : State) (r : Reg) (v : Word) : (s.setReg r v).sf = s.sf := rfl
@[simp] theorem State.setReg_phase (s : State) (r : Reg) (v : Word) : (s.setReg r v).phase = s.phase := rfl

@[simp] theorem State.setPredsOf_wcc (s : State) (t : CtxRef) (v : Byte) : (s.setPredsOf t v).wcc = s.wcc := rfl
@[simp] theorem State.setPredsOf_cores (s : State) (t : CtxRef) (v : Byte) : (s.setPredsOf t v).cores = s.cores := rfl
@[simp] theorem State.setPredsOf_ctxs (s : State) (t : CtxRef) (v : Byte) : (s.setPredsOf t v).ctxs = s.ctxs := rfl
@[simp] theorem State.setPredsOf_devs (s : State) (t : CtxRef) (v : Byte) : (s.setPredsOf t v).devs = s.devs := rfl
@[simp] theorem State.setPredsOf_dram (s : State) (t : CtxRef) (v : Byte) : (s.setPredsOf t v).dram = s.dram := rfl
@[simp] theorem State.setPredsOf_dirty (s : State) (t : CtxRef) (v : Byte) : (s.setPredsOf t v).dirty = s.dirty := rfl
@[simp] theorem State.setPredsOf_pipes (s : State) (t : CtxRef) (v : Byte) : (s.setPredsOf t v).pipes = s.pipes := rfl
@[simp] theorem State.setPredsOf_streams (s : State) (t : CtxRef) (v : Byte) : (s.setPredsOf t v).streams = s.streams := rfl
@[simp] theorem State.setPredsOf_wbuf (s : State) (t : CtxRef) (v : Byte) : (s.setPredsOf t v).wbuf = s.wbuf := rfl
@[simp] theorem State.setPredsOf_abuf (s : State) (t : CtxRef) (v : Byte) : (s.setPredsOf t v).abuf = s.abuf := rfl
@[simp] theorem State.setPredsOf_slots (s : State) (t : CtxRef) (v : Byte) : (s.setPredsOf t v).slots = s.slots := rfl
@[simp] theorem State.setPredsOf_parts (s : State) (t : CtxRef) (v : Byte) : (s.setPredsOf t v).parts = s.parts := rfl
@[simp] theorem State.setPredsOf_jobs (s : State) (t : CtxRef) (v : Byte) : (s.setPredsOf t v).jobs = s.jobs := rfl
@[simp] theorem State.setPredsOf_tjobs (s : State) (t : CtxRef) (v : Byte) : (s.setPredsOf t v).tjobs = s.tjobs := rfl
@[simp] theorem State.setPredsOf_graphs (s : State) (t : CtxRef) (v : Byte) : (s.setPredsOf t v).graphs = s.graphs := rfl
@[simp] theorem State.setPredsOf_queues (s : State) (t : CtxRef) (v : Byte) : (s.setPredsOf t v).queues = s.queues := rfl
@[simp] theorem State.setPredsOf_switches (s : State) (t : CtxRef) (v : Byte) : (s.setPredsOf t v).switches = s.switches := rfl
@[simp] theorem State.setPredsOf_allocs (s : State) (t : CtxRef) (v : Byte) : (s.setPredsOf t v).allocs = s.allocs := rfl
@[simp] theorem State.setPredsOf_tier (s : State) (t : CtxRef) (v : Byte) : (s.setPredsOf t v).tier = s.tier := rfl
@[simp] theorem State.setPredsOf_flash (s : State) (t : CtxRef) (v : Byte) : (s.setPredsOf t v).flash = s.flash := rfl
@[simp] theorem State.setPredsOf_agenda (s : State) (t : CtxRef) (v : Byte) : (s.setPredsOf t v).agenda = s.agenda := rfl
@[simp] theorem State.setPredsOf_ev (s : State) (t : CtxRef) (v : Byte) : (s.setPredsOf t v).ev = s.ev := rfl
@[simp] theorem State.setPredsOf_fresh (s : State) (t : CtxRef) (v : Byte) : (s.setPredsOf t v).fresh = s.fresh := rfl
@[simp] theorem State.setPredsOf_serial (s : State) (t : CtxRef) (v : Byte) : (s.setPredsOf t v).serial = s.serial := rfl
@[simp] theorem State.setPredsOf_tf (s : State) (t : CtxRef) (v : Byte) : (s.setPredsOf t v).tf = s.tf := rfl
@[simp] theorem State.setPredsOf_sf (s : State) (t : CtxRef) (v : Byte) : (s.setPredsOf t v).sf = s.sf := rfl
@[simp] theorem State.setPredsOf_phase (s : State) (t : CtxRef) (v : Byte) : (s.setPredsOf t v).phase = s.phase := rfl

@[simp] theorem State.modDev_wcc (s : State) (d : Nat) (f : Device → Device) : (s.modDev d f).wcc = s.wcc := rfl
@[simp] theorem State.modDev_cores (s : State) (d : Nat) (f : Device → Device) : (s.modDev d f).cores = s.cores := rfl
@[simp] theorem State.modDev_ctxs (s : State) (d : Nat) (f : Device → Device) : (s.modDev d f).ctxs = s.ctxs := rfl
@[simp] theorem State.modDev_pool (s : State) (d : Nat) (f : Device → Device) : (s.modDev d f).pool = s.pool := rfl
@[simp] theorem State.modDev_dram (s : State) (d : Nat) (f : Device → Device) : (s.modDev d f).dram = s.dram := rfl
@[simp] theorem State.modDev_dirty (s : State) (d : Nat) (f : Device → Device) : (s.modDev d f).dirty = s.dirty := rfl
@[simp] theorem State.modDev_pipes (s : State) (d : Nat) (f : Device → Device) : (s.modDev d f).pipes = s.pipes := rfl
@[simp] theorem State.modDev_streams (s : State) (d : Nat) (f : Device → Device) : (s.modDev d f).streams = s.streams := rfl
@[simp] theorem State.modDev_wbuf (s : State) (d : Nat) (f : Device → Device) : (s.modDev d f).wbuf = s.wbuf := rfl
@[simp] theorem State.modDev_abuf (s : State) (d : Nat) (f : Device → Device) : (s.modDev d f).abuf = s.abuf := rfl
@[simp] theorem State.modDev_slots (s : State) (d : Nat) (f : Device → Device) : (s.modDev d f).slots = s.slots := rfl
@[simp] theorem State.modDev_parts (s : State) (d : Nat) (f : Device → Device) : (s.modDev d f).parts = s.parts := rfl
@[simp] theorem State.modDev_jobs (s : State) (d : Nat) (f : Device → Device) : (s.modDev d f).jobs = s.jobs := rfl
@[simp] theorem State.modDev_tjobs (s : State) (d : Nat) (f : Device → Device) : (s.modDev d f).tjobs = s.tjobs := rfl
@[simp] theorem State.modDev_graphs (s : State) (d : Nat) (f : Device → Device) : (s.modDev d f).graphs = s.graphs := rfl
@[simp] theorem State.modDev_queues (s : State) (d : Nat) (f : Device → Device) : (s.modDev d f).queues = s.queues := rfl
@[simp] theorem State.modDev_switches (s : State) (d : Nat) (f : Device → Device) : (s.modDev d f).switches = s.switches := rfl
@[simp] theorem State.modDev_allocs (s : State) (d : Nat) (f : Device → Device) : (s.modDev d f).allocs = s.allocs := rfl
@[simp] theorem State.modDev_tier (s : State) (d : Nat) (f : Device → Device) : (s.modDev d f).tier = s.tier := rfl
@[simp] theorem State.modDev_flash (s : State) (d : Nat) (f : Device → Device) : (s.modDev d f).flash = s.flash := rfl
@[simp] theorem State.modDev_agenda (s : State) (d : Nat) (f : Device → Device) : (s.modDev d f).agenda = s.agenda := rfl
@[simp] theorem State.modDev_ev (s : State) (d : Nat) (f : Device → Device) : (s.modDev d f).ev = s.ev := rfl
@[simp] theorem State.modDev_fresh (s : State) (d : Nat) (f : Device → Device) : (s.modDev d f).fresh = s.fresh := rfl
@[simp] theorem State.modDev_serial (s : State) (d : Nat) (f : Device → Device) : (s.modDev d f).serial = s.serial := rfl
@[simp] theorem State.modDev_tf (s : State) (d : Nat) (f : Device → Device) : (s.modDev d f).tf = s.tf := rfl
@[simp] theorem State.modDev_sf (s : State) (d : Nat) (f : Device → Device) : (s.modDev d f).sf = s.sf := rfl
@[simp] theorem State.modDev_phase (s : State) (d : Nat) (f : Device → Device) : (s.modDev d f).phase = s.phase := rfl

/-! ## Contexts and cores -/

@[simp] theorem State.ctx_setCtx_same (s : State) (t : CtxRef) (v : Ctx) : (s.setCtx t v).ctx t = v := by
  simp [State.ctx, State.setCtx]

theorem State.ctx_setCtx_other (s : State) (t : CtxRef) (v : Ctx) (u : CtxRef) (h : u.code ≠ t.code) :
    (s.setCtx t v).ctx u = s.ctx u := by
  simp [State.ctx, State.setCtx, Table.get?_put_other _ _ _ _ h]

@[simp] theorem State.ctx_modCtx_same (s : State) (t : CtxRef) (f : Ctx → Ctx) : (s.modCtx t f).ctx t = f (s.ctx t) :=
  State.ctx_setCtx_same s t (f (s.ctx t))

theorem State.ctx_modCtx_other (s : State) (t : CtxRef) (f : Ctx → Ctx) (u : CtxRef) (h : u.code ≠ t.code) :
    (s.modCtx t f).ctx u = s.ctx u := State.ctx_setCtx_other s t _ u h

@[simp] theorem State.core_setCore_same (s : State) (c : CoreRef) (v : Core) : (s.setCore c v).core c = v := by
  simp [State.core, State.setCore]

theorem State.core_setCore_other (s : State) (c : CoreRef) (v : Core) (k : CoreRef) (h : k.code ≠ c.code) :
    (s.setCore c v).core k = s.core k := by
  simp [State.core, State.setCore, Table.get?_put_other _ _ _ _ h]

@[simp] theorem State.core_modCore_same (s : State) (c : CoreRef) (f : Core → Core) :
    (s.modCore c f).core c = f (s.core c) := State.core_setCore_same s c (f (s.core c))

theorem State.core_modCore_other (s : State) (c : CoreRef) (f : Core → Core) (k : CoreRef) (h : k.code ≠ c.code) :
    (s.modCore c f).core k = s.core k := State.core_setCore_other s c _ k h

@[simp] theorem State.core_setCtx (s : State) (t : CtxRef) (v : Ctx) (c : CoreRef) : (s.setCtx t v).core c = s.core c := rfl
@[simp] theorem State.core_modCtx (s : State) (t : CtxRef) (f : Ctx → Ctx) (c : CoreRef) :
    (s.modCtx t f).core c = s.core c := rfl
@[simp] theorem State.ctx_setCore (s : State) (c : CoreRef) (v : Core) (t : CtxRef) : (s.setCore c v).ctx t = s.ctx t := rfl
@[simp] theorem State.ctx_modCore (s : State) (c : CoreRef) (f : Core → Core) (t : CtxRef) :
    (s.modCore c f).ctx t = s.ctx t := rfl
@[simp] theorem State.ctx_setReg (s : State) (r : Reg) (v : Word) (t : CtxRef) : (s.setReg r v).ctx t = s.ctx t := rfl
@[simp] theorem State.core_setReg (s : State) (r : Reg) (v : Word) (c : CoreRef) : (s.setReg r v).core c = s.core c := rfl
@[simp] theorem State.ctx_setPredsOf (s : State) (u : CtxRef) (v : Byte) (t : CtxRef) :
    (s.setPredsOf u v).ctx t = s.ctx t := rfl
@[simp] theorem State.core_setPredsOf (s : State) (u : CtxRef) (v : Byte) (c : CoreRef) :
    (s.setPredsOf u v).core c = s.core c := rfl

end Sys2Proof.Machine
end

