-- ==== Sys2Proof/Laws/Stream.lean ====
section
/-! SUPPORT. What the shared operations of stream words do: the stack of the acting stream, free words, launches. -/

namespace Sys2Proof.Machine

theorem Table.put_put {α : Type} (t : Table α) (x : Nat) (v w : α) : (t.put x v).put x w = t.put x w := by
  induction t with
  | nil => simp [Table.put]
  | cons e t ih =>
    obtain ⟨k, u⟩ := e
    by_cases h1 : x < k
    · simp [Table.put, h1]
    · by_cases h2 : x = k
      · simp [Table.put, h2]
      · simp [Table.put, h1, h2, ih]

theorem State.stream_modStream_same (s : State) (x : StreamRef) (f : Stream → Stream) :
    (s.modStream x f).stream x = f (s.stream x) := by
  simp [State.modStream, State.stream, Table.get?_put_same]

theorem State.stream_modStream_other (s : State) (x y : StreamRef) (f : Stream → Stream) (h : y.code ≠ x.code) :
    (s.modStream x f).stream y = s.stream y := by
  simp [State.modStream, State.stream, Table.get?_put_other _ _ _ _ h]

@[simp] theorem State.sf_modSt (s : State) (f : Stream → Stream) : (s.modSt f).sf = s.sf := rfl
@[simp] theorem State.sf_popped (s : State) (n : Nat) : (s.popped n).sf = s.sf := rfl
@[simp] theorem State.pipe_modSt (s : State) (f : Stream → Stream) (p : PipeRef) : (s.modSt f).pipe p = s.pipe p := rfl
@[simp] theorem State.pipe_popped (s : State) (n : Nat) (p : PipeRef) : (s.popped n).pipe p = s.pipe p := rfl
@[simp] theorem State.jobs_modSt (s : State) (f : Stream → Stream) : (s.modSt f).jobs = s.jobs := rfl
@[simp] theorem State.jobs_popped (s : State) (n : Nat) : (s.popped n).jobs = s.jobs := rfl
@[simp] theorem State.clock_popped (s : State) (n : Nat) (v : Job) (p : PipeRef) :
    (s.popped n).clock v p = s.clock v p := rfl
@[simp] theorem State.horizon_popped (s : State) (n : Nat) (k : PartRef) : (s.popped n).horizon k = s.horizon k := rfl
@[simp] theorem State.wcc_popped (s : State) (n : Nat) : (s.popped n).wcc = s.wcc := rfl

@[simp] theorem State.st_modSt (s : State) (f : Stream → Stream) : (s.modSt f).st = f s.st :=
  s.stream_modStream_same s.sf f

@[simp] theorem State.st_popped (s : State) (n : Nat) : (s.popped n).st = { s.st with stack := s.st.stack.drop n } :=
  s.st_modSt _

theorem State.modSt_modSt (s : State) (f g : Stream → Stream) : (s.modSt f).modSt g = s.modSt fun t => g (f t) := by
  have h : (s.modStream s.sf f).stream s.sf = f (s.stream s.sf) := s.stream_modStream_same s.sf f
  rw [State.modStream] at h
  simp [State.modSt, State.modStream, h, Table.put_put]

/-- One operand popped. -/
theorem State.popped_one (s : State) (a : Word) (r : List Word) (h : s.st.stack = a :: r) :
    (s.modSt fun t => { t with stack := r }) = s.popped 1 := by
  have : (s.stream s.sf).stack = a :: r := h
  simp [State.popped, State.modSt, State.modStream, this]

/-- A free word whose result fits. -/
theorem freeWord_ok {s : State} {j : Nat} {v : Job} (h : s.OnJob j v) (f : List Word → Except Nat (List Word))
    (l : List Word) (hf : f s.st.stack = .ok l) (hl : l.length ≤ 8) :
    freeWord s f = .next (s.modSt fun t => { t with stack := l }) := by
  simp [freeWord, onJob, h.pipe, h.job, hf]; omega

/-- A free word that pops too much, or is illegal. -/
theorem freeWord_error {s : State} {j : Nat} {v : Job} (h : s.OnJob j v) (f : List Word → Except Nat (List Word))
    (c : Nat) (hf : f s.st.stack = .error c) : freeWord s f = .next (s.raiseAt j v s.sf c 0) := by
  simp [freeWord, onJob, h.pipe, h.job, hf]

/-- A free word whose push finds eight entries. -/
theorem freeWord_full {s : State} {j : Nat} {v : Job} (h : s.OnJob j v) (f : List Word → Except Nat (List Word))
    (l : List Word) (hf : f s.st.stack = .ok l) (hl : 8 < l.length) :
    freeWord s f = .next (s.raiseAt j v s.sf 2 0) := by
  simp [freeWord, onJob, h.pipe, h.job, hf, hl]

/-- A free word that pops an operand. -/
theorem freePop_cons {s : State} {j : Nat} {v : Job} (h : s.OnJob j v) (k : Nat → Job → Word → State → Out) (a : Word)
    (r : List Word) (hs : s.st.stack = a :: r) : freePop s k = k j v a (s.popped 1) := by
  simp only [freePop, onJob, h.pipe, h.job, hs]
  rw [s.popped_one a r hs]

/-- A free word that finds no operand. -/
theorem freePop_nil {s : State} {j : Nat} {v : Job} (h : s.OnJob j v) (k : Nat → Job → Word → State → Out)
    (hs : s.st.stack = []) : freePop s k = .next (s.raiseAt j v s.sf 3 0) := by
  simp [freePop, onJob, h.pipe, h.job, hs]

/-- What a launch does once the word may launch. -/
theorem launch_spec {s : State} {j : Nat} {v : Job} {i : Instr} {pops : Nat} (h : s.MayLaunch j v i pops)
    (k : Nat → Job → List Word → State → Issued) :
    launch s i pops k = match k j v (s.st.stack.take pops) (s.popped pops) with
      | .error (c, d) => .next (s.raiseAt j v s.sf c d)
      | .ok (n, u) => .next (u.modSt fun t => t.issued n) := by
  have h1 := h.onJob.pipe
  have h2 := h.onJob.job
  have h3 := h.wf
  have h4 : ¬(s.st.next < s.st.last + s.st.lastInterval + s.st.lastStretch) := by have := h.due; omega
  have h6 : ¬(s.st.stack.length < pops) := by have := h.depth; omega
  simp only [launch, onJob, h1, h2, h3, h4, h6, if_false, Bool.not_true, Bool.false_eq_true]
  cases hb : s.st.bound with
  | none => rfl
  | some b =>
    have h5 : ¬(actualStamp v s.st < (b : Int)) := by have := h.bound b hb; omega
    simp only [h5, decide_false, Bool.false_eq_true, if_false]
    rfl

/-! ## Operations: what claiming banks leaves alone, and what starting one does -/

theorem State.claimBank_frame (s : State) (j : Nat) (v : Job) (d : Option Nat) (b : BankRef) :
    (s.claimBank j v d b).streams = s.streams ∧ (s.claimBank j v d b).sf = s.sf := by
  unfold State.claimBank
  cases s.claimKind j v b <;> cases d <;> exact ⟨rfl, rfl⟩

theorem State.claimRanges_frame (s : State) (j : Nat) (v : Job) (d : Option Nat) (rs : List Range) :
    (s.claimRanges j v d rs).streams = s.streams ∧ (s.claimRanges j v d rs).sf = s.sf := by
  unfold State.claimRanges
  generalize List.append _ _ = l at *
  suffices h : ∀ (l : List BankRef) (u : State),
      (l.foldl (fun st b => st.claimBank j v d b) u).streams = u.streams
        ∧ (l.foldl (fun st b => st.claimBank j v d b) u).sf = u.sf from h _ s
  intro l
  induction l with
  | nil => intro u; exact ⟨rfl, rfl⟩
  | cons b l ih =>
    intro u
    have h1 := ih (u.claimBank j v d b)
    have h2 := u.claimBank_frame j v d b
    exact ⟨h1.1.trans h2.1, h1.2.trans h2.2⟩

/-- What starting an operation does: a fault of what it reads, or the operation in flight on the acting stream's pipe, the streams
as they were. -/
theorem State.startOp_spec (s : State) (j : Nat) (v : Job) (op : Op) (ec dsts : List Range) :
    (∀ f, s.readFault j v op.issue (readRanges s.sf.pipe op ec) = some f → s.startOp j v op ec dsts = .error f)
    ∧ (s.readFault j v op.issue (readRanges s.sf.pipe op ec) = none → ∃ u id, s.startOp j v op ec dsts = .ok (op.interval, u)
        ∧ (u.pipe s.sf.pipe).ops.get? id = some { op with reads := readRanges s.sf.pipe op ec, dsts := dsts } ∧ u.streams = s.streams ∧ u.sf = s.sf) := by
  constructor
  · intro f h; simp [State.startOp, h]
  · intro h
    simp only [State.startOp, h]
    refine ⟨_, (s.claimRanges j v (some op.issue) (readRanges s.sf.pipe op ec ++ dsts)).number.1, rfl, ?_, ?_, ?_⟩
    · simp only [State.pipe, State.modPipe, Table.get?_put_same, Option.getD_some]
    · exact (s.claimRanges_frame j v _ _).1
    · exact (s.claimRanges_frame j v _ _).2

/-- A launch word whose body starts an operation on a state that differs from the popped one in nothing that matters here. -/
theorem operates_of {s : State} {j : Nat} {v : Job} {i : Instr} {pops : Nat} (h : s.MayLaunch j v i pops)
    {k : Nat → Job → List Word → State → Issued} (he : exec i s = launch s i pops k) (u : State) (op : Op)
    (ec dsts : List Range) (what : Op → Prop) (hk : k j v (s.st.stack.take pops) (s.popped pops) = u.startOp j v op ec dsts)
    (hsf : u.sf = s.sf) (hst : u.streams = (s.popped pops).streams)
    (hrf : u.readFault j v op.issue (readRanges s.sf.pipe op ec) = s.readFault j v op.issue (readRanges s.sf.pipe op ec))
    (hw : op.word = i) (hj : op.job = j) (ha : op.args = s.st.stack.take pops) (hg : op.eng = s.sf.eng)
    (hi : op.issue = s.clock v s.sf.pipe) (hr : op.rel = 0) (hwhat : what op) :
    Operates i s j v pops op.interval ec what := by
  refine ⟨op, dsts, hw, hj, ha, hg, hi, rfl, hr, hwhat, ?_, ?_⟩
  · intro hq
    obtain ⟨t, id, h1, h2, h3, h4⟩ := (u.startOp_spec j v op ec dsts).2 (by rw [hsf]; exact hrf.trans hq)
    refine ⟨t.modSt fun t => t.issued op.interval, id, ?_, ?_, ?_⟩
    · rw [he, launch_spec h, hk, h1]
    · rw [hsf] at h2
      exact h2
    · rw [State.st_modSt]
      have : t.st = (s.popped pops).st := by
        simp only [State.st, State.stream, h3, h4, hst, hsf]
        rfl
      rw [this]
  · intro c d hq
    have h1 := (u.startOp_spec j v op ec dsts).1 (c, d) (by rw [hsf]; exact hrf.trans hq)
    show exec i s = _
    rw [he, launch_spec h, hk, h1]

end Sys2Proof.Machine
end

