-- ==== Sys2Proof/Laws/Thread.lean ====
section
/-! SUPPORT. What the shared operations of thread instructions do: writing registers and predicates, retiring, guards,
results. -/

namespace Sys2Proof.Machine

/-! ## Registers and predicates (R20) -/

/-- At its issue an instruction reads a register from the workspace. -/
theorem State.reg_issue (s : State) (h : s.Issues) (r : Reg) : s.reg r = s.regOf s.tf r.toNat := by
  simp only [State.Issues] at h
  simp only [State.reg, h]

/-- A register reads as it was written. -/
theorem State.regOf_setReg_same (s : State) (d : Reg) (v : Word) (h : s.pool.wf) : (s.setReg d v).regOf s.tf d.toNat = v := by
  show toWord ((s.pool.setNum (s.workspace s.tf + 8 * d.toNat) 8 v.toNat).num (s.workspace s.tf + 8 * d.toNat) 8) = v
  rw [Memory.num_setNum _ _ _ _ h]
  simp [toWord, Nat.mod_eq_of_lt v.isLt]

/-- Writing a register leaves the others alone. -/
theorem State.regOf_setReg_other (s : State) (d r : Reg) (v : Word) (h : r ≠ d) :
    (s.setReg d v).regOf s.tf r.toNat = s.regOf s.tf r.toNat := by
  have h' : r.toNat ≠ d.toNat := fun e => h (BitVec.eq_of_toNat_eq e)
  show toWord ((s.pool.setBytes (s.workspace s.tf + 8 * d.toNat) _).num (s.workspace s.tf + 8 * r.toNat) 8) = _
  rw [Memory.num_setBytes_other _ _ _ _ _ (by rw [leBytes_length]; omega)]
  rfl

theorem State.pool_setReg_other (s : State) (d : Reg) (v : Word) (a : Nat)
    (h : ¬s.regBytes d a) : (s.setReg d v).pool.get a = s.pool.get a :=
  Memory.get_setBytes_other _ _ _ _ (by
    rw [leBytes_length]; simp only [State.regBytes, bytesAt, not_and_or] at h; omega)

theorem State.predsOf_setPredsOf (s : State) (t : CtxRef) (v : Byte) (h : s.pool.wf) :
    (s.setPredsOf t v).predsOf t = v ||| 1 := by
  have hb := Memory.getBytes_setBytes s.pool (s.workspace t + 128) (leBytes 8 (v ||| 1).toNat) h
  rw [leBytes_length] at hb
  have h0 := (List.cons.inj hb).1
  have hk : (s.setPredsOf t v).pool.get ((s.setPredsOf t v).workspace t + 128) = v ||| 1 := by
    refine h0.trans ?_
    simp
  rw [State.predsOf, hk]
  ext i hi
  simp only [BitVec.getElem_or]
  cases v[i] <;> cases (1#8)[i] <;> rfl

theorem State.pool_setPredsOf_other (s : State) (v : Byte) (a : Nat) (h : ¬s.predBytes a) :
    (s.setPredsOf s.tf v).pool.get a = s.pool.get a :=
  Memory.get_setBytes_other _ _ _ _ (by
    rw [leBytes_length]; simp only [State.predBytes, bytesAt, not_and_or] at h; omega)

/-- Bit k of the byte with bit 0 set. -/
theorem predBit_or_one (v : Byte) (k : Nat) : (v ||| 1).getLsbD k = (decide (k = 0) || v.getLsbD k) := by
  rw [BitVec.getLsbD_or]
  have : (1#8).getLsbD k = decide (k = 0) := by
    rcases k with _ | k
    · rfl
    · simp [BitVec.getLsbD_one]
  rw [show (1 : Byte) = 1#8 from rfl, this, Bool.or_comm]

/-! ## Retiring -/

/-- What retiring does: the PC moves on, the context is ready, and only its place in the rotation changes beside. -/
theorem State.retire_spec (s : State) (len : Nat) :
    (s.retire len).me = s.me.retired s.wcc len
    ∧ (∀ u : CtxRef, u.code ≠ s.tf.code → (s.retire len).ctx u = s.ctx u)
    ∧ (∀ c : CoreRef, c.code ≠ s.tf.core.code → (s.retire len).core c = s.core c)
    ∧ (s.retire len).core s.tf.core = { s.core s.tf.core with rot := ((s.retire len).core s.tf.core).rot }
    ∧ s.retire len = { s with ctxs := (s.retire len).ctxs, cores := (s.retire len).cores } := by
  rw [State.retire, State.makeReady]
  split
  · rename_i h
    rw [State.ctx_modCtx_same] at h
    refine ⟨?_, fun u hu => State.ctx_modCtx_other _ _ _ _ hu, fun _ _ => rfl, rfl, rfl⟩
    show (State.modCtx s s.tf _).ctx s.tf = _
    rw [State.ctx_modCtx_same]
    simp only [State.me, Ctx.retired] at h ⊢
    simp only [h, if_true]
  · rename_i h
    rw [State.ctx_modCtx_same] at h
    refine ⟨?_, fun u hu => ?_, fun c hc => ?_, ?_, rfl⟩
    · show (State.modCore _ _ _).ctx s.tf = _
      rw [State.ctx_modCore, State.ctx_modCtx_same, State.ctx_modCtx_same]
      simp only [Ctx.retired, State.me] at h ⊢
      simp [h]
    · rw [State.ctx_modCore, State.ctx_modCtx_other _ _ _ _ hu, State.ctx_modCtx_other _ _ _ _ hu]
    · rw [State.core_modCore_other _ _ _ _ hc]; rfl
    · rw [State.core_modCore_same]; rfl

/-- A state whose pool alone differs from s, retired. -/
theorem Retires.of_pool {s : State} {m : Memory} {touched : Nat → Prop} (len : Nat)
    (h : ∀ a, ¬touched a → Memory.get m a = s.pool.get a) :
    Retires s (State.retire { s with pool := m } len) len touched := by
  obtain ⟨h1, h2, h3, h4, h5⟩ := State.retire_spec { s with pool := m } len
  have hp : (State.retire { s with pool := m } len).pool = m := by rw [h5]
  refine ⟨⟨fun a ha => ?_, h2, h3, ?_⟩, h1, h4⟩
  · rw [hp]; exact h a ha
  · rw [h5]

/-- The registers that a retired state shows are those of the workspace. -/
theorem State.reg_retire (s : State) (len : Nat) (r : Reg) : (s.retire len).reg r = s.regOf s.tf r.toNat := by
  obtain ⟨h1, -, -, -, h5⟩ := State.retire_spec s len
  have htf : (s.retire len).tf = s.tf := by rw [h5]
  have hp : (s.retire len).pool = s.pool := by rw [h5]
  have hw : ((s.retire len).ctx s.tf).wp = (s.ctx s.tf).wp := by
    have := congrArg Ctx.wp h1
    simpa [State.me, htf, Ctx.retired] using this
  have hh : (s.retire len).me.held = none := by rw [h1]; rfl
  simp only [State.reg, hh, State.regOf, State.workspace, htf, hp, hw]

theorem State.pred_retire (s : State) (len : Nat) (e : BitVec 3) : (s.retire len).pred e = s.pred e := by
  obtain ⟨h1, -, -, -, h5⟩ := State.retire_spec s len
  have htf : (s.retire len).tf = s.tf := by rw [h5]
  have hp : (s.retire len).pool = s.pool := by rw [h5]
  have hw : ((s.retire len).ctx s.tf).wp = (s.ctx s.tf).wp := by
    have := congrArg Ctx.wp h1
    simpa [State.me, htf, Ctx.retired] using this
  simp only [State.pred, State.predsOf, State.workspace, htf, hp, hw]

/-! ## Results -/

/-- A meaning that ends in `result` writes the register and retires. -/
theorem result_spec (len : Nat) (s : State) (d : Reg) (v : Word) (h : s.pool.wf) :
    ∃ t, result len s d v = .next t ∧ t.reg d = v ∧ Retires s t len (s.regBytes d) :=
  ⟨_, rfl, (State.reg_retire _ _ _).trans (State.regOf_setReg_same s d v h),
    Retires.of_pool len fun a ha => State.pool_setReg_other s d v a ha⟩

/-- A false guard retires the instruction and changes nothing (R23). -/
theorem guarded_false (g : Guard) (len : Nat) (s : State) (k : State → Out) (hi : s.Issues) (h : s.guardHolds g = false) :
    guarded g len s k = .next (s.retire len) := by
  simp only [State.Issues] at hi
  simp [guarded, h, hi]

theorem guarded_true (g : Guard) (len : Nat) (s : State) (k : State → Out) (h : s.guardHolds g = true) :
    guarded g len s k = k s := by simp [guarded, h]

/-- An instruction that goes on after a wait is past its guard (R23). -/
theorem guarded_held (g : Guard) (len : Nat) (s : State) (k : State → Out) (h : s.me.held.isSome) :
    guarded g len s k = k s := by simp [guarded, h]

theorem retire_spec' (len : Nat) (s : State) : Retires s (s.retire len) len noBytes :=
  Retires.of_pool (m := s.pool) len fun _ _ => rfl

/-- A meaning that ends in setting a predicate. -/
theorem setPred_spec (s : State) (e : BitVec 3) (b : Bool) (h : s.pool.wf) :
    Retires s ((s.setPred e b).retire 4) 4 s.predBytes
    ∧ ((s.setPred e b).retire 4).pred e = (e = 0 || b)
    ∧ ∀ k, k ≠ e → ((s.setPred e b).retire 4).pred k = s.pred k := by
  simp only [State.pred_retire]
  by_cases he : e = 0
  · subst he
    refine ⟨?_, ?_, fun k _ => ?_⟩
    · simp only [State.setPred, if_true]
      exact Retires.of_pool (m := s.pool) 4 fun _ _ => rfl
    · simp only [State.setPred, if_true, State.pred, State.predsOf]
      rw [predBit_or_one]; simp
    · simp [State.setPred]
  · have he' : e.toNat ≠ 0 := fun x => he (BitVec.eq_of_toNat_eq x)
    rw [State.setPred, if_neg he]
    refine ⟨Retires.of_pool 4 fun a ha => State.pool_setPredsOf_other s _ a ha, ?_, fun k hk => ?_⟩
    · show ((State.setPredsOf s s.tf _).predsOf s.tf).getLsbD e.toNat = _
      rw [State.predsOf_setPredsOf _ _ _ h, predBit_or_one]
      have h8 : e.toNat < 8 := e.isLt
      have hm : (1#8 <<< e.toNat).getLsbD e.toNat = true := by simp [h8]
      cases b
      · simp only [Bool.false_eq_true, if_false, BitVec.getLsbD_and, BitVec.getLsbD_not, hm]; simpa [he'] using he
      · simp only [if_true, BitVec.getLsbD_or, hm]; simp
    · show ((State.setPredsOf s s.tf _).predsOf s.tf).getLsbD k.toNat = (s.predsOf s.tf).getLsbD k.toNat
      rw [State.predsOf_setPredsOf _ _ _ h, predBit_or_one]
      have hk' : k.toNat ≠ e.toNat := fun x => hk (BitVec.eq_of_toNat_eq x)
      have h8 : k.toNat < 8 := k.isLt
      by_cases h0 : k.toNat = 0
      · rw [h0, State.predsOf, predBit_or_one]; simp
      · have hz : (1#8 <<< e.toNat).getLsbD k.toNat = false := by
          rw [BitVec.getLsbD_shiftLeft]
          by_cases hlt : k.toNat < e.toNat
          · simp [hlt]
          · have : k.toNat - e.toNat ≠ 0 := by omega
            simp [BitVec.getLsbD_one, this]
        cases b
        · simp only [Bool.false_eq_true, if_false]
          rw [BitVec.getLsbD_and, BitVec.getLsbD_not]
          rw [hz]; simp [h0, h8]
        · simp only [if_true]
          rw [BitVec.getLsbD_or, hz]; simp [h0]

end Sys2Proof.Machine
end

