-- ==== Sys2Proof/Tests/Slice0.lean ====
section
/-! SUPPORT. Tests of the model: ill-formed terms for each check of WellFormed, words written out from the encodings of the spec,
single steps whose results the spec states, and for every statement of Obligations.lean a witness: a concrete state and operands
that meet its hypotheses. -/

namespace Sys2Proof.Tests

-- The kernel evaluates many of these closed facts; one at a time they need less memory than side by side.
set_option Elab.async false

open Sys2Proof Sys2Proof.Machine

/-! ## Small states -/

/-- Context 0 of core (0, 0) of device 0. -/
abbrev me : CtxRef := ⟨.thread 0 0 0, 0⟩

/-- A ready context at 0x1000, with its vector at 0x2000. -/
def ready : Ctx := { Ctx.reset with mode := .ready, pc := 0x1000, tvec := 0x2000 }

/-- A thread core with a workspace area of 2.5 KiB, a pool of 128 KiB and an L1 of 128 KiB. -/
def plainCore : Core := { Core.reset with powered := true, bndW := 5, bndS := 256, bndL := 512, rot := [0] }

/-- A page of 64 KiB, mapped one to one. -/
def page (space : BitVec 16) (va : Nat) : TlbEntry := pageEntry space va

/-- The device with the pages 0, 0x10000 and 0x20000 of space 0 held by its stations. -/
def plainDev : Device := { Device.reset with bootStatus := 0, tlb := [page 0 0, page 0 0x10000, page 0 0x20000] }

/-- One running context; its registers hold the values listed. -/
def thread (regs : List (Nat × Word)) : State :=
  regs.foldl (fun s r => s.setRegOf me r.1 r.2)
    { State.reset with wcc := 1000, tf := me, devs := [(0, plainDev)], cores := [(0, plainCore)], ctxs := [(0, ready)] }

/-- A guard that holds: p0 is true. -/
abbrev always : Guard := ⟨0, 0⟩

/-- A guard that does not hold. -/
abbrev never : Guard := ⟨1, 0⟩

/-- Two small operands, one of them negative. -/
def pair : State := thread [(2, 0xFFFFFFFFFFFFFFFB), (3, 7)]

/-- The acting context, changed. -/
def withMe (s : State) (f : Ctx → Ctx) : State := s.modCtx me f

/-- The acting core, changed. -/
def withCore (s : State) (f : Core → Core) : State := s.modCore me.core f

/-- A running thread job of queue 0 of device 0, in the whole rectangle. -/
def aJob : TJob :=
  { dev := 0, queue := 0, seq := 1, node := none, prio := 0, space := 0, tvec := 0x2000, rect := 0x7EF, root := 0x11000,
    maxgap := 0, bndW := 5, bndS := 256, bndL := 512, wins := [0, 0, 0, 0], sent := 0, rcvd := 0, dqEmpty := true,
    wave := (0, 0), state := .running }

/-- A thread on bank 5 of switch 4, which holds an allocation of its space. -/
def onSwitch : State :=
  let t : CtxRef := ⟨.switch 4 5, 1⟩
  let s := { thread [] with
    tf := t, allocs := [{ switch := 4, mir := false, off := 0, size := 2 ^ 32, space := 0, inc := 1, freed := false }] }
  (s.setCtx t { ready with home := some me, guest := true, wp := 160 }).setCtx me { ready with mode := .away }

/-- Counters: partition 0 stands at 50, the targets are 50, 51 and 1001. -/
def counters : State := (thread [(2, 50), (3, 51), (4, 1001)]).modPart ⟨0, 0⟩ fun p => { p with formed := true, clusters := [0], pcc := 50 }

/-- Pipe 0 of device 0. -/
abbrev pipe0 : PipeRef := ⟨0, 0⟩

/-- A job of pipes 0 and 1: shape 0 of four rows of 256 bytes in A, two oasis records, the second with a segment table. -/
def job0 : Job :=
  { (thread []).placedJob with
    pipes := [0, 1], start := 400, shapes := [{ buf := .a, base := 0x1000, rows := 4, elem := 2, stride := 0x100 }],
    oases := [{ openAt := 0x800, len := 0x100, maps := [{ buf := .a, wr := true, rd := true, off := 0x2000, len := 0x80 }],
                slots := [{ bound := 7, default := 3, stall := false }, { bound := 1, default := 0, stall := true }], segtab := none },
              { openAt := 0x1000, len := 0x100, maps := [], slots := [{ bound := 1, default := 0, stall := false }],
                segtab := some 0 }],
    segtabs := [[{ slen := 100, seq := 1, lde := 2, mxe := 3, vxe := 4, cpe := 5 },
                 { slen := 160, seq := 6, lde := 7, mxe := 8, vxe := 9, cpe := 10 }]] }

/-- An engine's stream of pipe 0 under job 0, at PCC 500, with a stack. -/
def stream (e : Engine) (v : Job) (stack : List Word) : State :=
  let x : StreamRef := ⟨pipe0, e⟩
  { thread [] with
    sf := x, jobs := [(0, v)], parts := [(0, { Partition.reset with formed := true, clusters := [0], pcc := 500 })],
    pipes := [(0, { Pipe.reset with job := some 0 }), (1, { Pipe.reset with job := some 0 })],
    streams := [(x.code, { Stream.reset with started := true, code := [5, 0xCB00, 5], stack := stack, next := 100, last := 90,
                                             lastInterval := 10, dec := .decoding })] }

theorem onJob0 (e : Engine) (stack : List Word) : (stream e job0 stack).OnJob 0 job0 :=
  ⟨by simp [stream, State.pipe, PipeRef.code, Table.get?], by simp [stream, Table.get?]⟩

/-! ## Witnesses: integer instructions, guards, floating point, lane ops -/

theorem witness_enabled : pair.Enabled always := ⟨by decide, by decide⟩

/-- A zero divisor, and the pair whose quotient overflows. -/
theorem witness_division :
    (thread [(2, 5)]).Enabled always ∧ (thread [(2, 5)]).reg 3 = 0
    ∧ (thread [(2, 0x8000000000000000), (3, 0xFFFFFFFFFFFFFFFF)]).Enabled always
    ∧ pair.reg 3 ≠ 0 ∧ ¬(pair.reg 2 = 0x8000000000000000 ∧ pair.reg 3 = 0xFFFFFFFFFFFFFFFF) :=
  ⟨⟨by decide, by decide⟩, by decide, ⟨by decide, by decide⟩, by decide, by decide⟩

/-- A false guard, on a legal word that is no branch. -/
theorem witness_falseGuard :
    (Instr.add never 1 2 3).guard? = some (never, 4) ∧ (Instr.add never 1 2 3).legalAt pair = true
    ∧ (∀ h d, Instr.add never 1 2 3 ≠ .br never h d) ∧ pair.guardHolds never = false :=
  ⟨rfl, by decide, fun _ _ => by simp, by decide⟩

/-- A word that is illegal whatever its guard: CMP with condition 10. -/
theorem witness_illegal :
    (Instr.cmp never 1 2 3 0 10).guard?.isSome ∧ (Instr.cmp never 1 2 3 0 10).legalAt pair = false := by decide

/-- FCMP of a NaN and of two numbers. -/
theorem witness_floatCompare :
    ((f64.value 0x7FF8000000000000).isNan || (f64.value 0).isNan) = true
    ∧ ((f64.value 0x3FF0000000000000).isNan || (f64.value 0).isNan) = false := by decide

/-- A pattern of each format that is no NaN: the largest subnormal. -/
theorem witness_rounding :
    0x000FFFFFFFFFFFFF < 2 ^ (f64.signBit + 1) ∧ f64.isNan 0x000FFFFFFFFFFFFF = false
    ∧ 0x007FFFFF < 2 ^ (f32.signBit + 1) ∧ f32.isNan 0x007FFFFF = false
    ∧ 0x7F < 2 ^ (bf16.signBit + 1) ∧ bf16.isNan 0x7F = false
    ∧ 0x3FF < 2 ^ (f16.signBit + 1) ∧ f16.isNan 0x3FF = false := by decide

/-- A conversion of each kind that the statement names is legal. -/
theorem witness_convert :
    cvtLegal 0 1 5 = true ∧ cvtLegal 0 3 5 = true ∧ cvtLegal 1 5 1 = true ∧ cvtLegal 1 5 3 = true ∧ cvtLegal 1 5 0 = true := by
  decide

/-- The divider idle and busy, the normaliser idle and busy. -/
theorem witness_sharedUnits :
    ((pair.core pair.tf.core).divBusy ≤ pair.wcc ∧ (pair.core pair.tf.core).divQueue = [])
    ∧ (let b := pair.modCore me.core fun c => { c with divBusy := 2000, normBusy := 2000 }
       ¬((b.core b.tf.core).divBusy ≤ b.wcc ∧ (b.core b.tf.core).divQueue = [])
       ∧ ¬((b.core b.tf.core).normBusy ≤ b.wcc ∧ (b.core b.tf.core).normQueue = []))
    ∧ ((pair.core pair.tf.core).normBusy ≤ pair.wcc ∧ (pair.core pair.tf.core).normQueue = []) := by decide

/-- Three operands of lane ops at the self alias, eight elements of two bytes each (type 1). -/
def lanes : State :=
  let s := thread [(1, 0x00FE000000001000), (2, 0x00FE000000001100), (3, 0x00FE000000001200)]
  { s with pool := (s.pool.setBytes 0x1100 [1, 0, 255, 255, 3, 0]).setBytes 0x1200 [2, 0, 2, 0, 5, 0] }

/-- The operands of every shape of lane op pass the checks, and one that lies outside the pool fails. -/
theorem witness_lanes :
    lanes.pool.wf = true ∧ lanes.guardHolds always = true
    ∧ lanes.laneCheck 2 (laneOps3 16 16 1 2 3 lanes) = .ok (me.core, [0x1000, 0x1100, 0x1200])
    ∧ lanes.laneCheck 2 (laneOps2 16 16 1 2 lanes) = .ok (me.core, [0x1000, 0x1100])
    ∧ lanes.laneCheck 2 (laneOps2 2 16 1 2 lanes) = .ok (me.core, [0x1000, 0x1100])
    ∧ lanes.laneCheck 2 (laneOps3 2 16 1 2 3 lanes) = .ok (me.core, [0x1000, 0x1100, 0x1200])
    ∧ (let s := thread [(1, 0x00FE000000020000), (2, 0x00FE000000001100)]
       s.laneCheck 2 (laneOps2 16 16 1 2 s) = .error (5, 0x00FE000000020000)) := by decide

/-! ## Witnesses: control and memory -/

/-- Link and target registers: aligned ones, and w4 that is not. -/
def jumps : State := thread [(15, 0x3000), (3, 0x3004), (4, 0x3002)]

theorem witness_branches :
    jumps.pool.wf = true ∧ jumps.guardHolds always = true ∧ jumps.guardHolds never = false
    ∧ (jumps.reg 15).toNat % 4 = 0 ∧ (jumps.reg 3).toNat % 4 = 0 ∧ (jumps.reg 4).toNat % 4 ≠ 0
    ∧ (thread [(15, 1)]).pool.wf = true ∧ (thread [(15, 1)]).guardHolds always = true
    ∧ ((thread [(15, 1)]).reg 15).toNat % 4 ≠ 0 := by decide

theorem witness_counters :
    counters.pool.wf = true ∧ counters.guardHolds always = true
    ∧ (counters.part ⟨counters.memDev counters.tf, 0⟩).formed = true
    ∧ (counters.reg 2).toNat ≤ (counters.part ⟨counters.memDev counters.tf, 0⟩).pcc
    ∧ (counters.part ⟨counters.memDev counters.tf, 0⟩).pcc < (counters.reg 3).toNat
    ∧ (counters.part ⟨counters.memDev counters.tf, 1⟩).formed = false
    ∧ (counters.reg 2).toNat ≤ counters.wcc ∧ counters.wcc < (counters.reg 4).toNat := by decide

/-- Contexts 0 and 1 of the core run; w2 names context 1. -/
def two : State := (thread [(2, 1), (3, 16)]).setCtx ⟨me.core, 1⟩ ready

theorem witness_follow :
    (two.guardHolds always = true ∧ (two.reg 2).toNat < 16 ∧ (two.reg 2).toNat % 16 ≠ two.tf.n
      ∧ (two.ctx ⟨me.core, 1⟩).mode ≠ .free ∧ (two.ctx ⟨me.core, 1⟩).mode ≠ .away ∧ two.me.leader = none
      ∧ two.followers two.tf.core two.tf.n = [] ∧ (two.ctx ⟨me.core, 1⟩).leader = none
      ∧ (two.followers two.tf.core 1).length < 3)
    ∧ ¬(two.reg 3).toNat < 16
    ∧ (withMe two fun c => { c with leader := some 1 }).me.leader = some 1
    ∧ two.rejoinOf two.tf = none
    ∧ (∀ e ∈ two.ctxs, e.2.rejoin ≠ some (two.homeOf two.tf))
    ∧ (let s := withMe two fun c => { c with rejoin := some ⟨me.core, 1⟩ }
       s.rejoinOf s.tf = some ⟨me.core, 1⟩ ∧ (s.ctx ⟨me.core, 1⟩).mode ≠ .free ∧ s.locate ⟨me.core, 1⟩ = some ⟨me.core, 1⟩
       ∧ s.me.leader = none ∧ s.followers s.tf.core s.tf.n = [] ∧ (s.ctx ⟨me.core, 1⟩).leader = none
       ∧ (s.followers s.tf.core 1).length < 3)
    ∧ (let s := withMe two fun c => { c with rejoin := some ⟨me.core, 2⟩ }
       s.rejoinOf s.tf = some ⟨me.core, 2⟩ ∧ (s.ctx ⟨me.core, 2⟩).mode = .free)
    ∧ (let s := two.setCtx ⟨me.core, 1⟩ { ready with leader := some 0 }
       s.me.leader = none ∧ s.followers s.tf.core 0 = [1]) := by decide

/-- The recorded leader follows; it is a guest on another core; it travels. -/
theorem witness_rejoin :
    (let s := (withMe two fun c => { c with rejoin := some ⟨me.core, 1⟩ }).modCtx ⟨me.core, 1⟩ fun c => { c with leader := some 2 }
     s.locate ⟨me.core, 1⟩ = some ⟨me.core, 1⟩ ∧ (s.ctx ⟨me.core, 1⟩).leader ≠ none)
    ∧ (let h : CtxRef := ⟨me.core, 1⟩
       let s := (withMe two fun c => { c with rejoin := some h }).modCtx h fun c => { c with mode := .away }
       s.rejoinOf s.tf = some h ∧ s.locate h = none ∧ (s.ctx h).mode ≠ .free
       ∧ (let u := s.setCtx ⟨.edge 0 0, 0⟩ { ready with home := some h, guest := true }
          u.locate h = some ⟨.edge 0 0, 0⟩ ∧ (u.followers (.edge 0 0) 0).length < 3 ∧ (u.ctx ⟨.edge 0 0, 0⟩).leader = none
          ∧ u.me.leader = none ∧ u.followers u.tf.core u.tf.n = [])) := by decide

/-- A code address whose page no station holds. -/
theorem witness_fetchFails :
    ((withMe pair fun c => { c with pc := 0x100000 }).codeBytes me).toOption.isNone = true := by decide

/-- A context that may halt, alone on its core; beside another; with a deferred fault. -/
theorem witness_halt :
    (pair.guardHolds always = true ∧ pair.me.home = none ∧ pair.me.stores = [] ∧ pair.me.updates = [] ∧ pair.me.deferred = none
      ∧ pair.reg 2 ≠ 0 ∧ (pair.core pair.tf.core).retain = 0
      ∧ ∀ k, k < 16 → k ≠ pair.tf.n → (pair.ctx ⟨pair.tf.core, k⟩).mode = .free)
    ∧ (withMe pair fun c => { c with deferred := some (4, 0x100) }).me.deferred = some (4, 0x100) := by decide

/-- One address of each class, aligned to 8 bytes, at the limits of its range. -/
theorem witness_classes :
    pair.tf.core = .thread 0 0 0 ∧ pair.me.home = none
    ∧ 2 ^ 56 ≤ (0x0100000000000000 : Word).toNat
    ∧ (0x00DFFFFFFFFFFFF8 : Word).toNat < 0x00E0000000000000
    ∧ ((pair.core pair.tf.core).wins.find? fun w => windowCovers w 0x00DFFFFFFFFFFFF8) = none
    ∧ (let a := (0x00EB800000000000 : Word).toNat
       0xE0 ≤ a / 2 ^ 48 ∧ a / 2 ^ 48 < 0xF0 ∧ a / 2 ^ 47 % 32 ≤ 23 ∧ a / 2 ^ 38 % 8 = 0)
    ∧ 0xF0 ≤ (0x00F0000000000000 : Word).toNat / 2 ^ 48
    ∧ 192 ≤ (0x00FD00C000000000 : Word).toNat / 2 ^ 32 % 2 ^ 16
    ∧ (let a := (0x00FE00000001FFF8 : Word).toNat
       a / 2 ^ 48 = 0xFE ∧ a % 2 ^ 48 < (pair.core pair.tf.core).bndS.toNat * 512)
    ∧ (let a := (0x00FE000000020000 : Word).toNat
       a / 2 ^ 48 = 0xFE ∧ (pair.core pair.tf.core).bndS.toNat * 512 ≤ a % 2 ^ 48 ∧ a % 2 ^ 48 < 2 ^ 18)
    ∧ 2 ^ 18 ≤ (0x00FE000000040000 : Word).toNat % 2 ^ 48
    ∧ 128 ≤ (0x00FF000008000000 : Word).toNat % 2 ^ 48 / 2 ^ 20 := by decide

/-- w2 in the own pool, w3 in device memory, w4 above the pool, w5 a self-alias word that scopes level 1. -/
def addresses : State :=
  thread [(1, 0x1122334455667788), (2, 0x00FE000000001000), (3, 0x10100), (4, 0x00FE000000020000), (5, 0), (6, 0x5000000000000000), (7, 0xF000000000000000)]

/-- The same with the line of w3 in L1. -/
def inL1 : State := withCore addresses fun c => { c with l1 := [⟨0x202, List.replicate 128 0x5A⟩] }

theorem witness_loads :
    addresses.pool.wf = true ∧ addresses.guardHolds always = true ∧ (addresses.me.stores.any fun e => e.mark) = false
    ∧ addresses.aim (addresses.memAddr 2 3 0 1) 8 = .ok (.pool me.core 0x1008)
    ∧ addresses.aim (addresses.memAddr 3 3 0 1) 8 = .ok (.dram 0 false false)
    ∧ addresses.aim (addresses.memAddr 4 3 0 1) 8 = .error 5
    ∧ addresses.aim (addresses.memAddr 2 3 1 1) 8 = .ok (.pool me.core 0x1000)
    ∧ scopeLegal (addresses.reg 5) = true ∧ scopeLegal (addresses.reg 6) = true ∧ scopeLegal (addresses.reg 7) = false
    ∧ addresses.aim (addresses.reg 2) 8 = .ok (.pool me.core 0x1000) := by decide

theorem witness_l1 :
    inL1.aim (inL1.memAddr 3 3 0 1) 8 = .ok (.dram 0 false false)
    ∧ inL1.l1Bytes (inL1.memAddr 3 3 0 1) 8 = some (List.replicate 8 0x5A)
    ∧ passesStore (byVirtual inL1.me.stores) (.dram 0 0x10108 0x10108) 8 = false
    ∧ addresses.l1Bytes (addresses.memAddr 3 3 0 1) 8 = none
    ∧ addresses.translateAt (addresses.memAddr 3 3 0 1) 0 false .read = .ok 0x10108
    ∧ allQueued addresses.me.stores (.dram 0 0x10108 (addresses.memAddr 3 3 0 1)) 8 = false := by decide

theorem witness_switchLoad :
    (let s := onSwitch.setRegOf onSwitch.tf 2 0x00E2020000A00100
     s.guardHolds always = true ∧ s.tierRoute s.tf 4 (0xA00100) = .go s.tf.core false ∧ s.tf.core = .switch 4 5
     ∧ s.aim (s.memAddr 2 3 0 0) 8 = .ok (.tier 4 1 (0xA00100))
     ∧ s.tierCheck s.me.space 4 1 (0xA00100) = none) := by decide

/-- A load that waits for its home slice, and its reply. -/
def loading : State :=
  { withMe addresses fun c => { c with mode := .waiting (.load 0 0x10108 0x10108 none), cur := some (.ld always 1 3 3 0 0 1) } with
    ev := .ctx me 77, tf := ⟨.edge 0 0, 3⟩ }

theorem witness_reply :
    loading.ev = .ctx me 77 ∧ (loading.ctx me).mode = .waiting (.load 0 0x10108 0x10108 none)
    ∧ (loading.ctx me).cur = some (.ld always 1 3 3 0 0 1) ∧ memForm (.ld always 1 3 3 0 0 1) = some ⟨1, 3, 3, 0, 0, 1⟩
    ∧ loading.moving 0 0x10108 = false ∧ loading.askedEarlier me = false
    ∧ passesStore (loading.ctx me).stores (.dram 0 0x10108 0x10108) 8 = false := by decide

/-- One queued store, to the pool or to device memory. -/
def entry (x : Target) (bs : List Byte) (mark : Bool) : StoreEntry :=
  { target := x, bytes := bs, issued := 990, space := 0, after := none, mark := mark }
def queued (x : Target) : State := withMe addresses fun c => { c with stores := [entry x [1, 2, 3, 4] false] }

theorem witness_stores :
    addresses.translateAt (addresses.memAddr 3 3 0 1) 0 false .write = .ok 0x10108
    ∧ (let s := withCore addresses fun c => { c with win0 := 0x80C0000000000000 }
       s.aim (s.memAddr 3 3 0 1) 8 = .ok (.dram 3 true false)
       ∧ (let u := s.modDev 3 fun _ => plainDev
          u.translateAt (u.memAddr 3 3 0 1) 3 true .write = .ok 0x10108))
    ∧ (let s := withCore addresses fun c => { c with win0 := 0xC0C0000000000000 }
       s.aim (s.memAddr 3 3 0 1) 8 = .ok (.dram 3 true true))
    ∧ countsUpdates addresses.tf.core (scopeLevel (addresses.reg 5)) = false
    ∧ (queued (.pool me.core 0x1000)).me.stores ≠ []
    ∧ (queued (.pool me.core 0x1000)).guardHolds always = true
    ∧ (let s := { queued (.dram 0 0x10100 0x10100) with ev := .ctx me 0 }
       s.ev = .ctx me 0 ∧ (s.ctx me).stores = [entry (.dram 0 0x10100 0x10100) [1, 2, 3, 4] false] ∧ s.moving 0 0x10100 = false)
    ∧ (let q := [entry (.dram 0 0x10100 0x10100) [1] false, entry (.pool me.core 0x1000) [2] false]
       (withMe addresses fun c => { c with stores := q }).performable q = [0, 1])
    ∧ (addresses.me.wp.toNat + 160 ≤ 0x1000) := by decide

theorem witness_ordering :
    scopeLevel (addresses.reg 5) ≤ 1 ∧ 1 < scopeLevel (addresses.reg 6)
    ∧ (addresses.ctx (addresses.homeOf addresses.tf)).updates = [] ∧ (addresses.ctx (addresses.homeOf addresses.tf)).deferred = none
    ∧ ((withMe addresses fun c => { c with stores := [entry (.pool me.core 0x1000) [1] true] }).me.stores.any fun e => e.mark) = true
    ∧ (∀ m, m < 4 → addresses.drained addresses.tf m addresses.serial = true)
    ∧ (let busy (va : Word) := { withCore addresses fun c => { c with copy :=
          { EngineState.reset with fifo := [⟨0, 0, 0, false, none, [0, 0, va], [], [], []⟩] } } with serial := 1 }
       (busy 0x00FE000000001000).drained me 0 1 = false ∧ (busy 0x10000).drained me 2 1 = false)
    ∧ (let s := { withMe addresses fun c => { c with mode := .waiting (.drainMem 2 0) } with ev := .ctx me 0 }
       s.ev = .ctx me 0 ∧ (s.ctx me).mode = .waiting (.drainMem 2 0) ∧ s.drained me 2 0 = true) := by decide

/-- A range of device memory in w2 and w3, an empty one in w4, one that is too long in w5, an address above it in w6. -/
def ranges : State := thread [(2, 0x10100), (3, 0x200), (4, 0), (5, 0x1000000001), (6, 0x00FE000000000000)]

theorem witness_maintenance :
    ranges.guardHolds always = true ∧ (ranges.reg 2).toNat < deviceEnd ∧ ranges.me.stores = [] ∧ ranges.me.priv = false
    ∧ (withMe ranges fun c => { c with priv := true }).me.priv = true
    ∧ 0 < (ranges.reg 3).toNat ∧ (ranges.reg 3).toNat ≤ 2 ^ 36 ∧ ranges.reg 4 = 0 ∧ 2 ^ 36 < (ranges.reg 5).toNat
    ∧ deviceEnd ≤ (ranges.reg 6).toNat := by decide

/-- The context issues a maintenance instruction, and no interleave change is in progress. -/
theorem witness_maintenanceEnds :
    (∀ i : Instr, (withMe ranges fun c => { c with cur := some i }).me.cur = some i)
    ∧ (∀ i : Instr, (withMe ranges fun c => { c with cur := some i }).me.stores = [])
    ∧ ∀ d, (ranges.dev d).change = none := by
  refine ⟨fun _ => rfl, fun _ => rfl, fun d => ?_⟩
  have h : ranges.devs = [(0, plainDev)] := by decide
  rw [State.dev, h]
  cases d with
  | zero => rfl
  | succ n => simp [Table.get?, Device.reset]

/-- A dirty line of 0x10100 under a walk of CFLUSHR. -/
def walking : State :=
  let s := withMe ranges fun c => { c with mode := .waiting (.reply 0x10100 0x80), cur := some (.cflushr always 2 3) }
  { s.dramSet 0 0x10100 [9, 8, 7] with ev := .ctx me 0 }

theorem witness_walk :
    walking.ev = .ctx me 0 ∧ (walking.ctx me).mode = .waiting (.reply 0x10100 0x80)
    ∧ (walking.ctx me).cur = some (.cflushr always 2 3) ∧ (walking.dev (walking.memDev me)).change = none
    ∧ ((walking.modDev 0 fun v => { v with walks := v.walks.filter fun k => !(k == me) }).maintainPages 2 0x10100 0x80 1).2 = none := by
  decide

theorem witness_noWindow : ∀ w ∈ (walking.core me.core).wins, windowCovers w 0x10100 = false := by
  intro w hw
  have h : (walking.core me.core).wins = [0, 0, 0, 0] := by decide
  rw [h] at hw
  have h0 : w = 0 := by simpa using hw
  subst h0
  decide

/-! ## Witnesses: atomics, updates, migration, messages, tasks, engines -/

/-- w2 in the own pool, w3 in device memory, w4 in the pool of the next core of the cluster, w5 above the pool, w6 an operand. -/
def words : State :=
  (thread [(2, 0x00FE000000001000), (3, 0x10100), (4, 0x00FF000000101000), (5, 0x00FE000000020000), (6, 0x8000000000000003)]).setCore
    (.thread 0 1 0) plainCore

/-- The same with a queued store, and with a rectangle that R32 forbids. -/
def wordsQueued : State := withMe words fun c => { c with stores := [entry (.pool me.core 0x2000) [1] false] }
def wordsRect : State := withMe words fun c => { c with rect := 0x10000 }

theorem witness_atomics :
    words.guardHolds always = true ∧ atomicLegal 2 3 = true ∧ atomicLegal 1 2 = true ∧ atomicLegal 0 0 = true
    ∧ words.aim (words.reg 2) 8 = .ok (.pool me.core 0x1000) ∧ words.aim (words.reg 2) 16 = .ok (.pool me.core 0x1000)
    ∧ rectLegal words.me.rect.toNat = true ∧ words.me.stores = [] ∧ (words.ctx (words.homeOf words.tf)).updates = []
    ∧ words.aim (words.reg 3) 8 = .ok (.dram 0 false false) ∧ words.translateAt (words.reg 3) 0 false .write = .ok 0x10100
    ∧ words.aim (words.reg 4) 8 = .ok (.pool (.thread 0 1 0) 0x1000) ∧ words.aim (words.reg 5) 8 = .error 5
    ∧ rectLegal wordsRect.me.rect.toNat = false ∧ wordsQueued.me.stores ≠ [] := by decide

/-- A network FAA that waits for its reply. -/
def adding : State :=
  { withMe words fun c => { c with mode := .waiting (.atomic 0 0x10100 0x10100 5), cur := some (.faa always 1 3 6 0 0 1) } with
    ev := .ctx me 0 }

theorem witness_atomicReply :
    adding.ev = .ctx me 0 ∧ (adding.ctx me).mode = .waiting (.atomic 0 0x10100 0x10100 5)
    ∧ (adding.ctx me).cur = some (.faa always 1 3 6 0 0 1)
    ∧ atomicForm (.faa always 1 3 6 0 0 1) = some ⟨.faa, 1, 3, 6, 0, false, 0, 64⟩ ∧ adding.moving 0 0x10100 = false := by decide

theorem witness_atomicEffect :
    words.pool.wf = true ∧ words.me.stores = [] ∧ 0xFFFFFFFF < 2 ^ 32 ∧ words.me.wp.toNat + 160 ≤ 160 := by decide

/-- An update from context 0, to the pool of the next core, or to an address that does not translate. -/
def update (va : Word) : RemoteUpdate :=
  { id := 0, src := me, core := me.core, kind := 0, va := va, value := 3, space := 0, priv := false }

theorem witness_updates :
    words.aim (words.reg 3) 8 = .ok (.dram 0 false false) ∧ words.aim (words.reg 5) 8 = .error 5
    ∧ words.updateSilent (update 0x00FF000000101000) = false
    ∧ words.updatePlace (update 0x00FF000000101000) = .pool (.thread 0 1 0) 0x1000
    ∧ words.updateSilent (update 0x90000) = false ∧ words.updateTarget (update 0x90000) = .error 3
    ∧ (words.ctx (update 0x90000).src).deferred = none := by decide

/-- w2 in the own pool, w3 in a pool of another space, w4 on bank 5 of switch 4. -/
def moves : State :=
  let s := (thread [(2, 0x00FE000000001000), (3, 0x00FF000000101000), (4, 0x00E2020000A00100), (5, 0x00FE000000020000)]).setCore
    (.thread 0 1 0) { plainCore with space := 7 }
  { s with allocs := [{ switch := 4, mir := false, off := 0, size := 2 ^ 32, space := 0, inc := 1, freed := false }] }

theorem witness_moves :
    moves.guardHolds always = true ∧ moves.aim (moves.reg 2) 1 = .ok (.pool (moves.aliasCore me) 0x1000)
    ∧ (let s := onSwitch.setRegOf onSwitch.tf 2 0x00E2020000A00100
       s.guardHolds always = true ∧ s.aim (s.reg 2) 1 = .ok (.tier 4 1 0xA00100)
       ∧ s.tierRoute s.tf 4 0xA00100 = .go s.tf.core false ∧ s.me.home = some me
       ∧ s.mayLeave s.tf (.home (s.me.pc + 4) .goOn) = true)
    ∧ moves.aim (moves.reg 3) 1 = .ok (.pool (.thread 0 1 0) 0x1000) ∧ (CoreRef.thread 0 1 0).isThread = true
    ∧ (moves.core (.thread 0 1 0)).space ≠ moves.me.space
    ∧ moves.aim (moves.reg 5) 1 = .error 5
    ∧ moves.aim (moves.reg 4) 1 = .ok (.tier 4 1 0xA00100) ∧ moves.tierRoute me 4 0xA00100 = .go (.switch 4 5) false
    ∧ moves.mayLeave me (.go (.switch 4 5) (moves.me.pc + 4) (moves.reg 4) false) = true
    ∧ moves.me.home = none ∧ moves.followers me.core me.n = [] ∧ moves.me.leader = none := by decide

/-- The thread of context 0 as a caravan bound for bank 5 of switch 4, or back home, with a trap or without. -/
def travel0 (why : Homeward) : Caravan :=
  { lead := { pc := 0x1004, regs := (List.range 16).map toWord, pred := 3, priv := false, space := 0, home := me },
    followers := [], via := [], mirrored := false, why := why }

/-- A domain in which context 0 is away; the switch core is powered, with free contexts or without. -/
def away : State :=
  (withMe moves fun c => { c with mode := .away, departure := some ⟨0x1000, 0x50, false⟩ }).modCore (.switch 4 5) fun c => { c with powered := true }
def full : State :=
  (List.range 16).foldl (fun s n => s.setCtx ⟨.switch 4 5, n⟩ ready) away

theorem witness_admission :
    away.redirect (.switch 4 5) (travel0 .goOn) = some (.switch 4 5) ∧ (away.core (.switch 4 5)).inbox = []
    ∧ (travel0 .goOn).lead.home.core ≠ .switch 4 5 ∧ away.freeCtxs (.switch 4 5) = List.range 16 ∧ away.pool.wf = true
    ∧ (travel0 .goOn).lead.regs.length = 16 ∧ (away.core (.switch 4 5)).powered = true
    ∧ away.strayed (travel0 .goOn) = false ∧ away.orphaned (travel0 .goOn) = none ∧ away.discarded (.switch 4 5) (travel0 .goOn) = false
    ∧ full.orphaned (travel0 .goOn) = none ∧ full.discarded (.switch 4 5) (travel0 .goOn) = false
    ∧ full.redirect (.switch 4 5) (travel0 .goOn) = some (.switch 4 5) ∧ (full.core (.switch 4 5)).inbox = []
    ∧ full.freeCtxs (.switch 4 5) = [] := by decide

theorem witness_homecoming :
    ({ away with ev := .caravan (travel0 .goOn) } : State).ev = .caravan (travel0 .goOn) ∧ away.strayed (travel0 .goOn) = false
    ∧ away.orphaned (travel0 .goOn) = none ∧ away.discarded me.core (travel0 .goOn) = false
    ∧ (away.ctx me).mode = .away ∧ (travel0 (.trap ⟨5, 0, 8⟩)).why = .trap ⟨5, 0, 8⟩
    ∧ (away.ctx me).departure = some ⟨0x1000, 0x50, false⟩ := by decide

/-- w2 names class 1 of core (1, 0), w3 breaks a field, w4 names the rectangle from (0, 0) to (1, 0), w5 breaks one. -/
def posts : State :=
  thread [(2, 0x81), (3, 0x2000), (4, 0x2000000000400020), (5, 0x1000000000400020), (6, 11), (7, 22)]

theorem witness_send :
    posts.guardHolds always = true ∧ (6 : Reg).toNat + (1 : BitVec 4).toNat ≤ 15
    ∧ destination 0 (posts.reg 2) = some (.thread 0 1 0) ∧ posts.canReach 0 = true ∧ posts.me.stores = []
    ∧ (posts.ctx (posts.homeOf posts.tf)).updates = [] ∧ destination 0 (posts.reg 3) = none
    ∧ multicast 0 (posts.reg 4) = some (0, false)
    ∧ snake 0 (wbits (posts.reg 4) 0 22) = [.thread 0 0 0, .thread 0 1 0]
    ∧ multicast 0 (posts.reg 5) = none
    ∧ ((posts.core me.core).msgClass 1).pending = false ∧ ((posts.core me.core).msgClass 1).bound = none
    ∧ (let s := posts.modClass me.core 1 fun k => { k with pending := true, bound := some (2, 4) }
       let s := s.setCtx ⟨me.core, 2⟩ ready
       ((s.core me.core).msgClass 1).pending = true ∧ ((s.core me.core).msgClass 1).bound = some (2, 4) ∧ 2 ≠ s.tf.n
       ∧ (s.ctx ⟨me.core, 2⟩).mode ≠ .free) := by decide

/-- A message to class 1 of core (1, 0), of two words. -/
def mail : Message :=
  { id := 0, tjob := none, src := me, space := 0, dest := .thread 0 1 0, cls := 1, words := [11, 22], remote := false, mcast := false, rest := [],
    refused := false }

/-- The destination core, with context 3 bound at w4, and waiting in RECV or not; one message stands in the queue, or none. -/
def postbox (waits : Bool) (queue : List Message) : State :=
  let c : CoreRef := .thread 0 1 0
  let s := (posts.setCore c plainCore).modClass c 1 fun k => { k with bound := some (3, 4), queue := queue }
  s.setCtx ⟨c, 3⟩ { ready with wp := 480, mode := if waits then .waiting (.recv 1) else .ready }

theorem witness_delivery :
    posts.cutOff mail = false ∧ posts.refuses mail = true ∧ (postbox false []).cutOff mail = false ∧ (postbox false []).refuses mail = false
    ∧ (((postbox false []).core mail.dest).msgClass 1).queue.length < 8
    ∧ (∀ w ∈ [false, true],
       (((postbox w [mail]).core mail.dest).msgClass 1).bound = some (3, 4)
       ∧ (((postbox w [mail]).core mail.dest).msgClass 1).queue = [mail]
       ∧ (((postbox w [mail]).core mail.dest).msgClass 1).pending = false
       ∧ ((postbox w [mail]).ctx ⟨mail.dest, 3⟩).mode ≠ .away ∧ (postbox w [mail]).pool.wf = true)
    ∧ ((withMe posts fun c => { c with mode := .waiting (.send 0x81 0) }).ctx me).mode = .waiting (.send 0x81 0) := by decide

/-- A core in a steal set; w2 names a descriptor in the pool at 0x1000, w3 is misaligned, w4 names a counter at 0x1100 that reads 0,
w5 one at 0x1108 that does not. `pin` and `counter` are words 0 to 2 of what SPAWN checks. -/
def tasks (counter : Word) : State :=
  let s := thread [(2, 0x00FE000000001000), (3, 0x00FE000000001004), (4, 0x00FE000000001100), (5, 0x00FE000000001108)]
  let s := withCore s fun c => { c with steal := some ⟨0, none, none⟩ }
  let s := withMe s fun c => { c with tjob := some 0 }
  { s with tjobs := [(0, aJob)], pool := ((s.pool.setNum 0x1000 8 0x11000).setNum 0x1008 8 counter.toNat).setNum 0x1108 8 2 }

theorem witness_spawn :
    (tasks 0).guardHolds always = true ∧ (tasks 0).me.home = none ∧ (tasks 0).me.stores = []
    ∧ ((tasks 0).ctx ((tasks 0).homeOf (tasks 0).tf)).updates = [] ∧ (tasks 0).spawnCheck ((tasks 0).reg 2) = .ok (0, none)
    ∧ (tasks 0).dequeFull (tasks 0).tf.core = false ∧ (tasks 0).portBusy (tasks 0).tf.core = false
    ∧ (∀ k < 16, ((tasks 0).ctx ⟨me.core, k⟩).asked = none) ∧ (tasks 0).agenda = []
    ∧ (tasks 0).descMoves me.core 0 false ((tasks 0).reg 2) = false
    ∧ (tasks 0x00FE000000001100).counterHidden me 0x00FE000000001100 = false
    ∧ (tasks 0x00FE000000001100).counterTarget me 0x00FE000000001100 .write = .ok (.pool me.core 0x1100)
    ∧ (tasks 0x00FE000000001100).spawnCheck ((tasks 0).reg 2) = .ok (0x00FE000000001100, none)
    ∧ (tasks 0).spawnCheck ((tasks 0).reg 3) = .error (2, 0, (tasks 0).reg 3) ∧ ((tasks 0).reg 3).toNat % 64 ≠ 0 := by decide

theorem witness_join :
    ((tasks 0).me.stores.any fun e => e.mark) = false ∧ (tasks 0).counterValue me ((tasks 0).reg 4) = .ok 0
    ∧ (tasks 0).settleCounter ((tasks 0).reg 4) = some (tasks 0) ∧ (tasks 0).settleCounter ((tasks 0).reg 3) = some (tasks 0)
    ∧ (tasks 0).counterHidden me ((tasks 0).reg 4) = false ∧ (tasks 0).counterValue me ((tasks 0).reg 5) = .ok 2
    ∧ (tasks 0).counterValue me ((tasks 0).reg 3) = .error (2, 0)
    ∧ (tasks 0).me.deferred = none ∧ (tasks 0).me.counter = 0
    ∧ (let s := withMe (tasks 0) fun c => { c with counter := 0x00FE000000001108 }
       s.me.counter ≠ 0 ∧ s.counterTarget s.tf s.me.counter .write = .ok (.pool me.core 0x1108)
       ∧ s.counterHidden s.tf s.me.counter = false)
    ∧ (let s := withMe (tasks 0) fun c => { c with mode := .waiting (.join 0x00FE000000001100 none) }
       (s.ctx me).mode = .waiting (.join 0x00FE000000001100 none) ∧ s.counterValue me 0x00FE000000001100 = .ok 0
       ∧ s.counterHidden me 0x00FE000000001100 = false)
    ∧ (let s := withMe (tasks 0) fun c => { c with mode := .waiting (.reply 0x00FE000000001000 0) }
       (s.ctx me).mode = .waiting (.reply 0x00FE000000001000 0) ∧ s.askedEarlier me = false
       ∧ s.portBusy (.thread 0 1 0) = false ∧ s.dequeFull (.thread 0 1 0) = false) := by decide

/-- The thief (1, 0), idle or probing, in the steal set of job 0; the victim (0, 0) holds one entry, or none. -/
def thieves (probing : Bool) (entries : List Word) : State :=
  let s := (tasks 0).setCore (.thread 0 1 0) { plainCore with rot := [], steal := some ⟨0, if probing then some 1000 else none, none⟩ }
  entries.foldl (fun s e => s.pushBottom me.core e none) s

theorem witness_deques :
    (tasks 0).pool.wf = true ∧ ((tasks 0).core me.core).dqLen = 0 ∧ ((tasks 0).core me.core).dqTop < 64
    ∧ wbits (dequeEntry 0x11040 false) 0 1 = 0 ∧ wbits (dequeEntry 0x11040 true) 0 1 = 1
    ∧ (let s := thieves false [0x11040]
       s.localEnv me.core = some (aJob.env 0) ∧ s.startContext me.core = some 1
       ∧ ({ s with wcc := 1001 } : State).portBusy me.core = false
       ∧ (s.core me.core).lastLocal = none ∧ (s.takeBottom me.core).map (fun x => x.1) = some 0x11040) := by decide

theorem witness_probes :
    ((thieves false [0x11040]).core (.thread 0 1 0)).steal = some ⟨0, none, none⟩
    ∧ ((thieves true [0x11040]).core (.thread 0 1 0)).steal = some ⟨0, some 1000, none⟩
    ∧ (thieves true [0x11040]).stealJob (.thread 0 1 0) = some (0, aJob)
    ∧ (let s := thieves true [0x11040]
       let s0 := s.modCore (.thread 0 1 0) fun u => { u with steal := some ⟨0, none, none⟩ }
       s0.stealContext (.thread 0 1 0) = some 0 ∧ (s0.takeTop me.core).map (fun x => x.1) = some 0x11040
       ∧ s.poolOffset me.core 0x11040 = none)
    ∧ (let s0 := (thieves true []).modCore (.thread 0 1 0) fun u => { u with steal := some ⟨0, none, none⟩ }
       (s0.takeTop me.core).isNone) := by decide

/-- A good descriptor's words. -/
def descWords : List Word := [0x11000, 0x00FE000000001108, 1, 2, 3, 4, 0, 0]

theorem witness_taskStart :
    (tasks 0).pool.wf = true ∧ descWords.length = 8 ∧ ((tasks 0).core me.core).powered = true
    ∧ (0x11000 : Word).toNat % 4 = 0 ∧ (0x11000 : Word).toNat < deviceEnd := by decide

/-- A command block at 0x1000 of the pool, and an engine with the results, the FIFO and the commands in progress given. -/
def engined (results : List Word) (fifo active : List EngineCommand) : State :=
  let s := thread [(2, 0x00FE000000001000)]
  let e : EngineState := { fifo := fifo, results := results, active := active, next := 0 }
  { withCore s fun c => { c with copy := e, gather := e, coll := e } with
    pool := (s.pool.setNum 0x1000 8 (0x01 * 2 ^ 56)).setNum 0x1018 8 4 }

/-- A copy of four bytes from device memory to the pool that notifies; one whose source does not translate; a gather of two words. -/
def copyCmd (src : Word) : EngineCommand :=
  { id := 0, owner := 0, space := 0, priv := false, tjob := none,
    words := [0x0100000000000001, src, 0x00FE000000001200, 4, 77, 0, 0, 0], left := [], due := [], got := [] }

/-- The copy with four bytes left to read; with the four bytes read; with all of them written. -/
def reading (src : Word) : EngineCommand := { copyCmd src with left := [(0, 4)], due := [(0, 4)] }
def writing4 : EngineCommand := { copyCmd 0x10100 with due := [(0, 4)], got := [(0, 1), (1, 2), (2, 3), (3, 4)] }
def gatherCmd : EngineCommand :=
  { copyCmd 0 with words := [0x0200000000000002, 0x10000, 0x00FE000000001300, 2, 0, 0, 0, 0] }

theorem witness_engines :
    (engined [9] [] []).guardHolds always = true ∧ (engined [9] [] []).aim ((engined [9] [] []).reg 2) 64 = .ok (.pool me.core 0x1000)
    ∧ (engined [9] [] []).aliasCore me = me.core ∧ (engined [9] [] []).me.stores = []
    ∧ ((engined [9] [] []).core me.core).copy.fifo.length < 16
    ∧ 16 ≤ ((engined [] (List.replicate 16 (copyCmd 0)) []).core me.core).copy.fifo.length
    ∧ ((engined [9] [] []).core me.core).gather.results = [9] ∧ ((engined [] [] []).core me.core).gather.results = []
    ∧ (engined [] [copyCmd 0x90000] []).checkCommand me.core .copy (copyCmd 0x90000) = .fails 3
    ∧ (engined [] [copyCmd 0x10100] []).checkCommand me.core .copy (copyCmd 0x10100) = .good := by decide

theorem witness_engineEnds :
    (let s := engined [] [] [copyCmd 0x10100]
     (s.core me.core).copy.active = [copyCmd 0x10100] ∧ (copyCmd 0x10100).due = [] ∧ (s.core me.core).copy.results.length < 32)
    ∧ (let s := engined [] [copyCmd 0x10100] []
       (s.core me.core).copy.fifo = [copyCmd 0x10100] ∧ s.checkCommand me.core .copy (copyCmd 0x10100) = .good)
    ∧ (let s := engined [] [] [gatherCmd]
       (s.core me.core).gather.active = [gatherCmd] ∧ (s.core me.core).gather.next + 1 < (gatherCmd.word 3).toNat
       ∧ s.poolOffset me.core (gatherCmd.word 2) = some 0x1300 ∧ s.rangeMoves me.core 0 0x10000 4 .read = false
       ∧ s.readRange me.core 0 (pagesOf 0x10000 4) 0x10000 4 = .ok [0, 0, 0, 0])
    ∧ (let s : State := { engined [] [] [] with colls := [(5, [(me.core, 0, 0, 42)])] }
       s.colls.get? 5 = some [(me.core, 0, 0, 42)] ∧ (s.core me.core).coll.results.length < 32) := by decide

/-- Four bytes of one word are one piece, whatever is chosen. -/
theorem piece_word (s : State) (va : Nat) (h : va % 8 = 0) :
    s.piece [(0, 4)] va = ((0, 4), { s with fresh := s.fresh + 3 }) := by
  have h1 : (va + 4 + 7) / 8 - va / 8 = 1 := by omega
  have h2 : va / 8 * 8 = va := by omega
  simp [State.piece, State.pick, h1, h2, Nat.mod_one, Nat.add_mul]

/-- What is left is read before it is written. -/
theorem copyStep_read (s : State) (c : CoreRef) (m : EngineCommand) (hl : m.left = [(0, 4)]) (hd : m.due = [(0, 4)])
    (h : (m.word 2).toNat % 8 = 0) : s.copyStep c m = ({ s with fresh := s.fresh + 1 } : State).copyRead c m := by
  simp [State.copyStep, State.pick, hl, hd, piece_word _ _ h]

theorem copyStep_write (s : State) (c : CoreRef) (m : EngineCommand) (hl : m.left = []) (hd : m.due = [(0, 4)])
    (h : (m.word 2).toNat % 8 = 0) : s.copyStep c m = ({ s with fresh := s.fresh + 4 } : State).copyWrite c m 0 4 := by
  simp [State.copyStep, State.pick, hl, hd, piece_word _ _ h]

theorem copyRead_word (s : State) (c : CoreRef) (m : EngineCommand) (va : Nat) (hl : m.left = [(0, 4)])
    (hv : (m.word 1).toNat = va) (h : va % 8 = 0) :
    s.copyRead c m = if s.rangeMoves c m.space va 4 .read then .ok none
      else (s.readRange c m.space (pagesOf va 4) va 4).map fun bs =>
        some (({ s with fresh := s.fresh + 3 } : State).modCopy c m.id fun a =>
          { a with left := cutRange a.left 0 4, got := a.got.setBytes 0 bs }) := by
  simp [State.copyRead, hl, hv, piece_word _ _ h]

/-- A copy that reads its piece, one that writes it, and one whose source does not translate. -/
theorem witness_copyStep :
    (∃ s1, (engined [] [] [reading 0x10100]).copyStep me.core (reading 0x10100) = .ok (some s1))
    ∧ (∃ s1, (engined [] [] [writing4]).copyStep me.core writing4 = .ok (some s1))
    ∧ (∃ x, (engined [] [] [reading 0x90000]).copyStep me.core (reading 0x90000) = .error x) := by
  refine ⟨?_, ?_, ?_⟩
  · rw [copyStep_read _ _ _ rfl rfl (by decide), copyRead_word _ _ _ 0x10100 rfl (by decide) (by decide),
      if_neg (by decide)]
    exact ⟨_, rfl⟩
  · rw [copyStep_write _ _ _ rfl rfl (by decide)]
    unfold State.copyWrite
    rw [if_neg (by decide)]
    exact ⟨_, rfl⟩
  · rw [copyStep_read _ _ _ rfl rfl (by decide), copyRead_word _ _ _ 0x90000 rfl (by decide) (by decide),
      if_neg (by decide)]
    exact ⟨3, rfl⟩

/-! ## Witnesses: the tier, DOTM, traps, system registers, translation, waits -/

/-- Quota of four granules on every switch; one allocation on switch 4; w2 a size, w4 its pointer, w5 a pointer inside it, w6 and w7
switch numbers. -/
def tier : State :=
  { thread [(2, 1), (4, 0x00E2020000000000), (5, 0x00E2020000000008), (6, 4), (7, 24), (8, 0x10000)] with
    switches := (List.range 24).map fun k => (k, { Switch.reset with quota := [(0, 4)] })
    allocs := [{ switch := 4, mir := false, off := 0, size := granule, space := 0, inc := 1, freed := false }] }

theorem witness_tier :
    tier.Enabled always ∧ (1 : Reg) ≠ 3 ∧ tier.free me 0x00E2020000000008 = .error 28
    ∧ (tier.free me 0x00E2020000000000).toOption.isSome ∧ (tier.reg 6).toNat ≤ 23 ∧ 23 < (tier.reg 7).toNat
    ∧ (tier.switch 4).inc < 64 ∧ isDeviceMemory (tier.reg 8) = true ∧ wbits (tier.reg 8) 56 8 = 0 :=
  ⟨⟨by decide, by decide⟩, by decide⟩

/-- A context that waits for the reply of a tier instruction. -/
def asking (i : Instr) (v : Word) : State :=
  { withMe tier fun c => { c with mode := .waiting (.reply v 0), cur := some i } with ev := .ctx me 0 }

theorem witness_tierReplies :
    ((asking (.salloc always 1 2 3) 1).ctx me).mode = .waiting (.reply 1 0)
    ∧ ((asking (.salloc always 1 2 3) 1).ctx me).cur = some (.salloc always 1 2 3)
    ∧ ((asking (.sallocMir always 1 2 3) 1).ctx me).cur = some (.sallocMir always 1 2 3)
    ∧ ((asking (.sfree always 4) 0x00E2020000000000).ctx me).cur = some (.sfree always 4) := by decide

/-- Requests that succeed, that ask for nothing, and that exceed the quota. -/
theorem witness_allocations :
    (tier.allocate 0 0 false 1 0).2.2 = 0 ∧ (tier.allocate 0 0 false 0 0).2.2 = 3
    ∧ (tier.allocate 0 0 false (5 * granule) 0).2.2 = 1 := by decide +kernel

/-- A DOTM command at 0x1000 of the pool of edge core 0: one row at `row`, `n` rows, the vector at 0x1100, the results at 0x1200. -/
def dotting (row : Word) (n : Nat) : State :=
  let t : CtxRef := ⟨.edge 0 0, 0⟩
  let s := { thread [] with tf := t }
  let s := (s.setCtx t ready).setRegOf t 2 0x1000
  let s := (s.setRegOf t 3 0x1004).setRegOf t 4 0x3FFF8
  let base := (CoreRef.edge 0 0).poolBase + 0x1000
  let p := (s.pool.setNum base 8 row.toNat).setNum (base + 8) 8 (128 * 2 ^ 32 + n)
  { s with pool := (p.setNum (base + 16) 8 0x1100).setNum (base + 24) 8 0x1200 }

theorem witness_dotm :
    (dotting 0x10000 1).tf.core = .edge 0 0 ∧ (dotting 0x10000 1).guardHolds always = true
    ∧ dotmOffset ((dotting 0x10000 1).reg 2) = some 0x1000 ∧ dotmOffset ((dotting 0x10000 1).reg 3) = some 0x1004
    ∧ dotmOffset ((dotting 0x10000 1).reg 4) = none
    ∧ (let m := dotmCommand ((dotting 0x10000 1).dotmWords (.edge 0 0) 0x1000)
       m.row.toNat < deviceEnd ∧ m.stride % 128 = 0 ∧ 1 ≤ m.n ∧ m.n ≤ 65536 ∧ m.vec + 128 * (dotmFormat 0).2 ≤ 2 ^ 18
       ∧ m.res + 4 * m.n ≤ 2 ^ 18)
    ∧ (dotting 0x10000 1).me.stores = [] := by decide

/-- A DOTM on edge core 0 that has read its row but for one word: a row whose home it is, and one that does not translate. -/
def dotted (row : Word) (n : Nat) : State :=
  let t : CtxRef := ⟨.edge 0 0, 0⟩
  let ws := (dotting row n).dotmWords (.edge 0 0) 0x1000
  { (dotting row n).modCtx t fun c => { c with mode := .waiting (.rows ws 0 (List.replicate 120 0)), cur := some (.dotm always 1 2 0) }
    with ev := .ctx t 0, tf := t }

theorem witness_dotmEnd :
    ((dotted 0x10000 1).ctx ⟨.edge 0 0, 0⟩).cur = some (.dotm always 1 2 0)
    ∧ (dotted 0x10000 1).rowCause 0 0 0x10000 128 = none ∧ (dotted 0x10000 2).rowCause 0 0 0x10000 128 = none
    ∧ (dotted 0x90000 1).rowCause 0 0 0x90000 128 = some 3
    ∧ (∀ n, n < 9 → ((dotted 0x10000 1).virtGet 0 0 3 (0x10000 + 120) n).isSome = true)
    ∧ (0x10000 + 128 + 7) / 8 - (0x10000 + 120) / 8 = 1
    ∧ (dotmCommand ((dotting 0x10000 1).dotmWords (.edge 0 0) 0x1000)).n = 1
    ∧ (dotmCommand ((dotting 0x10000 2).dotmWords (.edge 0 0) 0x1000)).n = 2 := by decide +kernel

/-- A thread whose vector can be fetched, and a guest that may leave. -/
theorem witness_traps :
    pair.pool.wf = true ∧ pair.me.home = none
    ∧ ((pair.writeFrame pair.tf pair.me.pc (causeWord pair.me.priv 5 0) 8).modCtx pair.tf fun v =>
        { v with priv := true, pc := v.tvec, cur := none, phase := 0, held := none, asked := none, last := some (pair.wcc + 8),
                 suspended := false }).fetchBytes pair.tf pair.me.tvec.toNat 4 = .ok [0, 0, 0, 0]
    ∧ (let s := withMe pair fun v => { v with tvec := 0x90000 }
       ((s.writeFrame s.tf s.me.pc (causeWord s.me.priv 5 0) 8).modCtx s.tf fun v =>
        { v with priv := true, pc := v.tvec, cur := none, phase := 0, held := none, asked := none, last := some (s.wcc + 8),
                 suspended := false }).fetchBytes s.tf s.me.tvec.toNat 4 = .error 3)
    ∧ onSwitch.me.home = some me ∧ onSwitch.mayLeave onSwitch.tf (.home onSwitch.me.pc (.trap ⟨5, 0, 8⟩)) = true
    ∧ onSwitch.mayLeave onSwitch.tf (.home onSwitch.me.pc .goOn) = true := by decide

/-- A privileged thread; w2 names one space, w3 sets a reserved bit. -/
def kernel : State := withMe (thread [(2, 0x10000), (3, 0x40000)]) fun c => { c with priv := true }

theorem witness_privilege :
    kernel.guardHolds always = true ∧ kernel.me.priv = true ∧ pair.me.priv = false ∧ kernel.me.stores = []
    ∧ (kernel.ctx (kernel.homeOf kernel.tf)).updates = [] ∧ wbits (kernel.reg 2) 18 46 = 0 ∧ wbits (kernel.reg 2) 16 2 ≠ 3
    ∧ wbits (kernel.reg 3) 18 46 ≠ 0 := by decide

/-- Values for SYSW: w2 a vector and a workspace, w3 a bound, w4 a bound that is too small, w5 a window, w6 one of the device itself,
w7 a misaligned workspace. -/
def registers : State :=
  withMe (thread [(2, 0x140), (3, 0x600), (4, 0x200), (5, 0x80C0000000000000), (6, 0x8000000000000000), (7, 4), (8, 0x20000)])
    fun c => { c with priv := true }

theorem witness_registers :
    registers.guardHolds always = true ∧ registers.me.priv = true ∧ (registers.reg 2).toNat % 2 ^ 56 / 4 * 4 < deviceEnd
    ∧ (registers.reg 2).toNat % 2 ^ 18 % 8 = 0
    ∧ (registers.reg 2).toNat % 2 ^ 18 + 160 ≤ (registers.core me.core).bndW.toNat * 512
    ∧ (registers.reg 7).toNat % 8 ≠ 0
    ∧ registers.boundsOk me.core ((registers.reg 3).toNat / 512 % 1024) 256 512 = true
    ∧ registers.boundsOk me.core 5 ((registers.reg 8).toNat / 512 % 1024) 512 = true
    ∧ registers.boundsOk me.core 5 256 ((registers.reg 8).toNat / 512 % 1024) = true
    ∧ registers.boundsOk me.core 0 256 512 = false ∧ windowBad 0 (registers.reg 5) = false ∧ windowBad 0 (registers.reg 6) = true := by
  decide

/-- w2 sets SYS.SLOTMAP to twelves, w3 to a share of 15, w4 a base of a domain with a wrong slice, w5 a legal one. -/
def maps : State :=
  withMe (thread [(2, 0xDDDDDDDD), (3, 0xFDDDDDDD), (4, 0x8102000000200000), (5, 0x8004000000200000)]) fun c => { c with priv := true }

/-- A change of HMASK0 that is under way, before P or after it; a SLOTMAP that waits for its turn. -/
def changing (pending : Bool) : State :=
  { maps.modDev 0 fun v => { v with change := some ⟨me, 0x20, 0x100, pending, 0⟩, slotWait := some ⟨me, 0x30, 0xDDDDDDDD, pending, 0⟩ } with
    wcc := 1024, ev := .dev 0 }

theorem witness_changes :
    maps.guardHolds always = true ∧ maps.me.priv = true ∧ maps.me.stores = [] ∧ (maps.ctx (maps.homeOf maps.tf)).updates = []
    ∧ (maps.dev 0).change = none ∧ wbits (maps.reg 5) 49 7 % 2 ^ wbits (maps.reg 5) 56 3 = 0
    ∧ wbits (maps.reg 4) 49 7 % 2 ^ wbits (maps.reg 4) 56 3 ≠ 0
    ∧ ((changing false).dev 0).change = some ⟨me, 0x20, 0x100, false, 0⟩ ∧ ((changing false).dev 0).walks = []
    ∧ ((changing true).dev 0).change = some ⟨me, 0x20, 0x100, true, 0⟩ ∧ ((changing true).dev 0).moved = []
    ∧ (∀ i, i < 8 → 4 ≤ share (toWord ((maps.reg 2).toNat % 2 ^ 32)) i ∧ share (toWord ((maps.reg 2).toNat % 2 ^ 32)) i ≤ 14)
    ∧ (maps.dev 0).slotWait = none
    ∧ ((List.range 8).any fun i => decide (share (toWord ((maps.reg 2).toNat % 2 ^ 32)) i < share (maps.dev 0).slotmap i)) = false
    ∧ ¬(∀ i, i < 8 → 4 ≤ share (toWord ((maps.reg 3).toNat % 2 ^ 32)) i ∧ share (toWord ((maps.reg 3).toNat % 2 ^ 32)) i ≤ 14)
    ∧ ((changing false).dev 0).slotWait = some ⟨me, 0x30, 0xDDDDDDDD, false, 0⟩ ∧ (changing false).wcc % 64 = 0 := by decide

/-- Another context's change, a queue that holds a store, a walk under way; a SLOTMAP that waits for a job. -/
theorem witness_changeWaits :
    (((changing false).dev 0).change.map fun c => decide (c.issuer ≠ ⟨me.core, 1⟩)) = some true
    ∧ (withMe maps fun c => { c with stores := [entry (.pool me.core 0x1000) [1] false] }).me.stores ≠ []
    ∧ (let s := (changing false).modDev 0 fun v => { v with walks := [me] }
       (s.dev 0).change ≠ none ∧ (s.dev 0).walks ≠ [])
    ∧ (let s : State := { changing true with jobs := [(0, { job0 with latA := 0 })] }
       (s.dev 0).slotWait = some ⟨me, 0x30, 0xDDDDDDDD, true, 0⟩ ∧ (0, { job0 with latA := 0 }) ∈ s.jobs ∧ job0.part.dev = 0
       ∧ job0.state = .running ∧ 0 < (latencies (leastShare 0xDDDDDDDD)).1)
    ∧ ((changing true).ctx me).stores = [] ∧ ((changing true).ctx me).mode = .ready := by decide

/-- Tables of space 1 that map page 0x10000 to 0x50000, written out from Tables 1 and 2 of R315 and R316. -/
def tables : State :=
  let d := (((((Memory.setNum [] 16 8 0x8000000000010000).setNum 24 8 0x3F).setNum 0x10000 8 0x8000000000020000).setNum 0x20000 8
    0x8000000000031000).setNum 0x31000 8 0x8000000000032100).setNum 0x32108 8 0xF000000000050000
  { thread [] with dram := d }

/-- The leaf of that page. -/
def leaf1 : TlbEntry :=
  { station := 1, space := 1, base := 0x10000, size := 0x10000, pa := 0x50000, wr := true, ex := true, pv := false, masters := 0x3F }

theorem witness_walks :
    tables.walk 0 1 0x10008 = some leaf1 ∧ (tables.dev 0).cached 1 0x10008 = none ∧ tables.leaf 0 1 0x10008 = some leaf1
    ∧ (tables.dev 0).cached 0 0x10008 = some (page 0 0x10000) ∧ tables.leaf 0 2 0x10008 = none
    ∧ leaf1.masters.getLsbD 5 = true
    ∧ ((tables.dev 0).tlb.filter fun f => f.station == leaf1.station).length < 4096
    ∧ (let s := tables.modDev 0 fun v => { v with tlb := [{ leaf1 with wr := false }] }
       s.leaf 0 1 0x10008 = some { leaf1 with wr := false }) := by decide +kernel

/-- An XINV of space 0 that waits. -/
def xinving : State :=
  { withMe kernel fun c => { c with mode := .waiting (.reply 0x10000 0), cur := some (.xinv always 2 3) } with ev := .ctx me 0 }

theorem witness_xinv :
    (xinving.ctx me).mode = .waiting (.reply 0x10000 0) ∧ (xinving.ctx me).cur = some (.xinv always 2 3)
    ∧ (xinving.ctxs.all fun e => decide (e.2.stores = [] ∧ (e.2.mode = .free ∨ e.1 = me.code))) = true := by decide

/-- No other context holds a translation of the space that an XINV names. -/
theorem witness_xinvAlone : ∀ t : CtxRef, t.code ≠ me.code → kernel.xinvWaits 0 0x10000 0 t = false := by
  intro t h
  have e : kernel.ctx t = Ctx.reset := by
    have : kernel.ctxs = [(me.code, { ready with priv := true })] := by decide
    simp [State.ctx, this, Table.get?, h]
  simp [State.xinvWaits, e, Ctx.reset]

/-- A store through a window to device 3 that waits for its acknowledgement. -/
def storing (va : Word) : State :=
  withMe (pair.modDev 3 fun _ => plainDev) fun c =>
    { c with mode := .waiting (.window 3 0x10100 va [7]), cur := some (.st always 2 3 0 0 0) }

/-- Waits whose moment has come. -/
theorem witness_waits :
    (let s := withMe counters fun c => { c with mode := .waiting (.counter none 1000) }
     (s.ctx me).mode = .waiting (.counter none 1000) ∧ (1000 : Word).toNat ≤ s.wcc)
    ∧ (let s := withMe counters fun c => { c with mode := .waiting (.counter (some 0) 50) }
       (s.ctx me).mode = .waiting (.counter (some 0) 50) ∧ (s.part ⟨s.memDev me, 0⟩).formed = true
       ∧ (50 : Word).toNat ≤ (s.part ⟨s.memDev me, 0⟩).pcc)
    ∧ (let s := withCore (withMe pair fun c => { c with mode := .waiting (.unit .divider 15 false) }) fun c => { c with divQueue := [(0, 64)] }
       (s.core me.core).divQueue = [(0, 64)] ∧ (s.core me.core).divBusy ≤ s.wcc
       ∧ (s.ctx ⟨me.core, 0⟩).mode = .waiting (.unit .divider 15 false))
    ∧ (let s := storing 0x10100
       (s.ctx me).mode = .waiting (.window 3 0x10100 0x10100 [7]) ∧ (s.ctx me).cur = some (.st always 2 3 0 0 0)
       ∧ memForm (.st always 2 3 0 0 0) = some ⟨2, 3, 0, 0, 0, 0⟩ ∧ s.moving 3 0x10100 = false ∧ s.askedEarlier me = false
       ∧ s.translate 3 (s.ctx me).space 0x10100 .write 5 false = .ok 0x10100)
    ∧ (storing 0x90000).translate 3 ((storing 0x90000).ctx me).space 0x90000 .write 5 false = .error 3 := by decide

/-! ## Witnesses: the words of the streams -/

/-- Stacks of every depth that the free words ask for: empty, one to seven entries, and full. -/
theorem witness_stacks :
    (stream .seq job0 []).st.stack.length < 8 ∧ 8 ≤ (stream .seq job0 (List.replicate 8 1)).st.stack.length
    ∧ (stream .seq job0 [1, 2, 3]).st.stack = (1 : Word) :: 2 :: 3 :: [] ∧ ([2, 3] : List Word).length < 7
    ∧ (stream .seq job0 (List.replicate 8 1)).st.stack = (1 : Word) :: List.replicate 7 1 ∧ (List.replicate 7 (1 : Word)).length = 7
    ∧ (stream .seq job0 []).st.stack = [] ∧ (1 : Word).toNat ≤ 1 ∧ (1 : Word).toNat < 2 ^ 32
    ∧ (1 : Word).toNat < (stream .seq job0 [1]).st.code.length := by decide

/-- The stream in a loop of two passes, and at its last one. -/
def looping (n : Nat) : State := (stream .seq job0 [2]).modSt fun t =>
  { t with loops := [{ count := n, start := 0, last := some 1 }], sets := { t.sets with lcount := 3, lstart := 0, lend := 1 } }

theorem witness_loops :
    (stream .seq job0 [0]).st.stack = [0] ∧ (stream .seq job0 [2]).st.loops.length < 4
    ∧ (looping 2).st.code[(looping 2).st.sets.lend]? = some 0xCB00 ∧ (looping 2).st.sets.lcount ≠ 0 ∧ (looping 2).st.loops.length < 4
    ∧ (stream .seq job0 [2]).st.code[(stream .seq job0 [2]).st.sets.lend]? ≠ some 0xCB00
    ∧ ((looping 2).modSt fun t => { t with sets := { t.sets with lcount := 0 } }).st.sets.lcount = 0
    ∧ 4 ≤ ((looping 2).modSt fun t => { t with loops := List.replicate 4 ⟨1, 0, none⟩ }).st.loops.length
    ∧ (stream .seq job0 [2]).st.loops = [] ∧ 1 < 2 ∧ (looping 1).st.loops = [{ count := 1, start := 0, last := some 1 }]
    ∧ ((looping 1).modSt fun t => { t with loops := [⟨1, 0, none⟩] }).st.loops = [⟨1, 0, none⟩] := by decide

/-- Launch words that come too early, below a bound, and with nothing on the stack. -/
theorem witness_launchFaults :
    (let t := ((stream .lde job0 []).modSt fun t => { t with next := 99 }).st
     t.next < t.last + t.lastInterval + t.lastStretch)
    ∧ (let s := (stream .lde job0 []).modSt fun t => { t with bound := some 501 }
       s.st.last + s.st.lastInterval + s.st.lastStretch ≤ s.st.next ∧ s.st.bound = some 501 ∧ actualStamp job0 s.st < 501)
    ∧ (stream .lde job0 []).st.bound = none ∧ (stream .lde job0 []).st.stack = [] := by decide

/-- Every launch word may issue here, with the operands it pops. -/
theorem witness_mayLaunch :
    (stream .seq job0 [7]).MayLaunch 0 job0 .rdv 1 ∧ (stream .mxe job0 []).MayLaunch 0 job0 .ppt 0
    ∧ (stream .seq job0 []).MayLaunch 0 job0 .haltj 0 ∧ (stream .seq job0 (List.replicate 8 1)).MayLaunch 0 job0 .rdpcc 0
    ∧ (stream .seq job0 []).MayLaunch 0 job0 (.await 3) 0 := by
  refine ⟨⟨onJob0 _ _, rfl, ?_, ?_, ?_⟩, ⟨onJob0 _ _, rfl, ?_, ?_, ?_⟩, ⟨onJob0 _ _, rfl, ?_, ?_, ?_⟩, ⟨onJob0 _ _, rfl, ?_, ?_, ?_⟩,
    ⟨onJob0 _ _, rfl, ?_, ?_, ?_⟩⟩ <;> decide

/-- Job 0 with window 0 open or closed; slot 0 holds 5. -/
def windowed (close : Nat) : Job :=
  { job0 with windows := [(0, { openAt := close - 0x100, closeAt := close, armedAt := 0, armedBy := [0], closed := decide (close ≤ 500),
                                posted := [some 5, none], fixed := [some 5, some 0], sel := 0, lateAt := none })] }

theorem witness_take :
    (windowed 476).compat = false ∧ (windowed 476).oases[(0 : Word).toNat]?.isSome
    ∧ ((windowed 476).windows.get? (0 : Word).toNat).isSome
    ∧ (let s := (stream .seq (windowed 476) [0, 0]).modStream ⟨pipe0, .mxe⟩ fun t => { t with started := true, dec := .decoding }
       (s.stream ⟨pipe0, takeEngine 2⟩).started = true ∧ (s.stream ⟨pipe0, takeEngine 2⟩).dec ≠ .ended
       ∧ 476 + s.horizon ⟨0, 0⟩ ≤ s.clock (windowed 476) pipe0 ∧ s.clock (windowed 477) pipe0 < 477 + s.horizon ⟨0, 0⟩) := by decide

/-- AWAIT of a tag whose newest load is in flight, has landed, or does not exist. -/
theorem witness_await :
    ((stream .seq job0 []).pipe pipe0).latestLoad 3 = none
    ∧ (∀ b ∈ [false, true],
       let op := (stream .lde job0 []).newOp 0 job0 (.ldw 3) [] 2
       let s := (stream .seq job0 []).modPipe pipe0 fun p =>
         { p with ops := [(9, { op with units := [{ addr := 0x10000, off := 0x40, len := 64, got := [], due := none, landed := b }] })],
                  latest := p.latest.put 3 9 }
       ((s.pipe pipe0).latestLoad 3).map (fun x => (x.1, x.2.landed)) = some (9, b)) := by decide

/-- The operands of SEQ's words at the limits of their ranges. -/
theorem witness_sequencer :
    ((stream .seq job0 [1]).pipe pipe0).fmtq.length < 16
    ∧ 16 ≤ (((stream .seq job0 [1]).modPipe pipe0 fun p => { p with fmtq := List.replicate 16 ⟨0, 0, 0, none⟩ }).pipe pipe0).fmtq.length
    ∧ (0x40000000 : Word).toNat < 2 ^ 32 ∧ f32.expo (0x40000000 : Word).toNat ≠ 255 ∧ f32.expo (0x7F800000 : Word).toNat = 255
    ∧ (-512 ≤ (0xFFFFFFFFFFFFFE00 : Word).toInt ∧ (0xFFFFFFFFFFFFFE00 : Word).toInt ≤ 511) ∧ 511 < (512 : Word).toInt
    ∧ (15 : Word).toNat ≤ 15 ∧ codeTableOk 0x4444444444444444 = true ∧ codeTableOk 0x1111111111111111 = false
    ∧ job0.shape 0 = some { buf := .a, base := 0x1000, rows := 4, elem := 2, stride := 0x100 }
    ∧ (job0.oases[1]?.map fun o => (o.segtab, o.slots.length)) = some (some 0, 1)
    ∧ (job0.segtabs[0]?.getD []).length = 2 ∧ job0.windows = [] := by decide

/-- Ranges that the loads accept: 0x80 bytes of page 0x10000, one row of shape 0, and 32 bytes of C. -/
theorem witness_loadRanges :
    (let s := stream .lde job0 []
     s.engineFault 0 0 .read 0x10000 (pagesOf 0x10000 0x80) = none ∧ 0x10000 + 0x80 ≤ deviceEnd
     ∧ s.rowCount pipe0 0 1 { buf := .a, base := 0x1000, rows := 4, elem := 2, stride := 0x100 } = .ok 1) := by decide

/-- The tier as the loads reach it: an allocation of the job's space on switch 4. -/
def tierStream (stack : List Word) : State :=
  { stream .lde job0 stack with allocs := [{ switch := 4, mir := false, off := 0, size := 2 ^ 32, space := 0, inc := 1, freed := false }] }

theorem witness_tierLoads :
    (tierStream []).tierTarget 0 0 0x00E2020000A00100 = .ok (.tier 4 false 0xA00100)
    ∧ (tierStream []).tierTarget 0 0 0x10000 = .error 19
    ∧ (∀ q, q < 24 → 0x10000 / 0x180000 ≤ q → q ≤ (0x10000 + 0x80 - 1) / 0x180000 → 0 / 24 * 24 + q ∈ job0.pipes)
    ∧ (∀ q, q < 24 → bit 2 q = true → 0 / 24 * 24 + q ∈ job0.pipes) := by decide

/-- A load may issue with three and with four operands on its stack. -/
theorem witness_loadLaunch :
    (stream .lde job0 [0x80, 0x40, 0x10000]).MayLaunch 0 job0 (.ldw 3) 3
    ∧ (stream .lde job0 [1, 0x80, 0, 0x10000]).MayLaunch 0 job0 (.lda 3) 4
    ∧ (stream .cpe job0 [0x80, 0x2000, 0x1000]).MayLaunch 0 job0 .cpaa 3 := by
  refine ⟨⟨onJob0 _ _, rfl, ?_, ?_, ?_⟩, ⟨onJob0 _ _, rfl, ?_, ?_, ?_⟩, ⟨onJob0 _ _, rfl, ?_, ?_, ?_⟩⟩ <;>
    decide

/-! ## Witnesses: tile commands, the vector engine, the copy engine, completions, faults -/

/-- BF16 by BF16 (W and A format 3), dense rows; and a word that breaks R153 (W format 0). -/
def fmtBf16 : FmtEntry := { word := 0x18C0000000000000, tw := 0x3F800000, ta := 0x3F800000, anchor := none }
def fmtBad : FmtEntry := { fmtBf16 with word := 0x00C0000000000000 }

/-- The matrix engine of pipe 0 with one format queued. -/
def matrix (e : FmtEntry) (stack : List Word) : State := (stream .mxe job0 stack).modPipe pipe0 fun p => { p with fmtq := [e] }

/-- Two rows of a tile at W 0, A 0, C 0. -/
theorem witness_tiles :
    ((matrix fmtBf16 [0, 0, 0, 2]).pipe pipe0).fmtq = [fmtBf16] ∧ formatOk fmtBf16.word false = true
    ∧ tileRows (matrix fmtBf16 []) job0 0 2 fmtBf16.word (pairDepth fmtBf16.word * elementBits (fmtA fmtBf16.word) / 8)
        = .ok (2, 0, pairDepth fmtBf16.word * elementBits (fmtA fmtBf16.word) / 8)
    ∧ peerOperand (matrix fmtBf16 []) job0 0 0 = some (pipe0, 0)
    ∧ peerOperand (matrix fmtBf16 []) job0 1 0x180000 = some (⟨0, 1⟩, 0)
    ∧ tileRows (matrix fmtBf16 []) job0 1 1 fmtBf16.word 0 = .ok (1, 0x1000, 0x100)
    ∧ formatOk fmtBf16.word true = true ∧ formatOk fmtBad.word false = false
    ∧ windowOk 0x0000000000040040 0 2 = true := by decide

/-- A count of eight elements; operands at 0x1000, 0x1040 and 0x1080; one beyond A; a count of 0. -/
theorem witness_vectors :
    (vecForm (.vadd 1) [8, 0x1000, 0x1040, 0x1080]).ok = true ∧ (vecForm (.vadd 1) [8, 0x1000, 0x1040, 0x1080]).inRange = true
    ∧ (vecForm (.vadd 1) [0, 0x1000, 0x1040, 0x1080]).ok = false
    ∧ (vecForm (.vadd 1) [8, 0x1000, 0x1040, 0x17FFF0]).ok = true
    ∧ (vecForm (.vadd 1) [8, 0x1000, 0x1040, 0x17FFF0]).inRange = false
    ∧ targetInt 14 0 = true ∧ requantOk 0x5F 95 = true ∧ requantOk 0x3F 63 = true ∧ targetInt 1 0 = false := by decide

/-- Ranges of the copy engine: two lines of A, device memory, 64 slots. -/
theorem witness_copies :
    (let s := stream .cpe job0 []
     s.engineFault 0 0 .write 0x10000 (pagesOf 0x10000 0x80) = none ∧ 0x10000 + 0x80 ≤ deviceEnd)
    ∧ (0x1000 + 0x80 ≤ 0x2000 ∨ 0x2000 + 0x80 ≤ 0x1000) ∧ ¬(0x1000 + 0x80 ≤ 0x1040 ∨ 0x1040 + 0x80 ≤ 0x1000)
    ∧ (targetFloat 1).bytes = 4 := by decide

/-- An operation of job 0 in flight on pipe 0, as number 9. -/
def inFlight (w : Instr) (f : Op → Op) : State :=
  let op := f ((stream .lde job0 []).newOp 0 job0 w [] 2)
  (stream .lde job0 []).modPipe pipe0 fun p => { p with ops := [(9, op)] }

/-- A load of one unit, in time and late; of the unit, n bytes have been read. -/
def unit0 (n : Nat) : LoadUnit := { addr := 0x10000, off := 0x40, len := 64, got := List.replicate n 0, due := none, landed := false }
def loaded (n deadline : Nat) : State :=
  { inFlight (.ldw 0) fun op => { op with plan := [], units := [unit0 n], dest := .w, deadline := deadline } with ev := .op pipe0 9 0 }

theorem witness_landing :
    ((loaded 64 2000).pipe pipe0).ops.map (fun e => (e.1, e.2.plan, e.2.units)) = [(9, [], [unit0 64])]
    ∧ (loaded 64 2000).bankWaits 0 pipe0 .w 0x40 64 = false ∧ (loaded 64 2000).bankFree pipe0 .w 0x40 = true
    ∧ ((loaded 64 2000).modPipe pipe0 fun p => { p with usedA := [bankOf .a 0x40] }).bankFree pipe0 .a 0x40 = false
    ∧ (((loaded 300 300).pipe pipe0).ops.all fun e => (loaded 300 300).loadLate pipe0 e.2) = true
    ∧ (loaded 64 300).abuf.wf = true ∧ ((loaded 64 300).pipe pipe0).sbuf = [] ∧ job0.fault = none := by decide

/-- The last word of a unit is read whatever is chosen. -/
theorem witness_request :
    (((loaded 56 2000).pipe pipe0).ops.all fun e => !(loaded 56 2000).unitMoves e.2 job0 (unit0 56)) = true
    ∧ (∀ n, n < 9 → (((loaded 56 2000).pipe pipe0).ops.all fun e =>
        decide (({ loaded 56 2000 with fresh := 1 } : State).unitBytes e.2 job0 (unit0 56) 56 n = .ok (List.replicate n 0))) = true)
    ∧ 64 - 56 - 8 * ((loaded 56 2000).pick (ceilDiv (64 - 56) 8)).1 = 8 ∧ (loaded 56 2000).fresh = 0 := by
  refine ⟨by decide +kernel, by decide +kernel, ?_, by decide⟩
  simp [State.pick, ceilDiv, Nat.mod_one]

/-- Integer formats (W and A format 14). -/
def fmtInt : FmtEntry := { fmtBf16 with word := 0x7390000000000000 }

/-- Row 0 of a one-tap window with one product, in order and past the headroom. -/
def rowing (count : BitVec 16) : State :=
  let m := (Memory.setNum [] (keyColumn 0 0) 1 3).setNum keyTile 1 5
  let g : Word := 0x0000000000040040
  let s := inFlight (.dwa 14) fun op => { op with eng := .mxe, fmt := some fmtInt, rows := 1, args := [g, 0, 0, 0, 1], bytes := m }
  let s := if count = 0 then s else s.setSlot pipe0 0 { Slot.zero with count := count }
  { s with ev := .op pipe0 9 0 }

theorem witness_row :
    formatOk fmtInt.word true = true ∧ (rowing 0).ev = .op pipe0 9 0
    ∧ (((rowing 0).pipe pipe0).ops.map fun e => (e.1, e.2.fmt, e.2.dead)) = [(9, some fmtInt, false)]
    ∧ (rowing 0).jobs.get? 0 = some job0 := by decide

theorem witness_rowAfter :
    (((rowing 0).pipe pipe0).ops.all fun e => ((rowing 0).rowAfter pipe0 e.2 fmtInt 0).isSome) = true
    ∧ (((rowing 32768).pipe pipe0).ops.all fun e => ((rowing 32768).rowAfter pipe0 e.2 fmtInt 0).isNone) = true := by
  decide +kernel
/-- A write of the copy engine on its way. -/
def writing : State :=
  { inFlight .cpah fun op => { op with eng := .cpe, writes := [(0, 0x10000, [1, 2])] } with ev := .op pipe0 9 (2 ^ 32) }

theorem witness_write :
    (((writing.pipe pipe0).ops.map fun e => e.2.writes.find? fun w => w.1 == 0) = [some (0, 0x10000, [1, 2])])
    ∧ job0.milestones = [] ∧ writing.storeMoves 0 0 1 0x10000 2 = false
    ∧ (writing.engineStore 0 0 2 0x10000 [1, 2]).toOption.isSome = true := by decide

/-- Nothing in flight is late or in the horizon of an AWAIT. -/
theorem witness_noReadFault :
    (stream .mxe job0 []).readFault 0 job0 500 [⟨pipe0, .a, 0, 0x100⟩, ⟨pipe0, .c, 0, 0x1000⟩] = none := by decide

/-- A slot with an anchor of 3; products of 1, of 2 to the 40 and NaN; a slot at its limit. -/
theorem witness_accumulate :
    (let k : Slot := { Slot.zero with anchor := 3, count := 1 }
     k.count ≠ 0 ∧ k.anchor.toInt = 3 ∧ floorLog 1 1 0 < 3 + 16 ∧ k.count.toNat < 32768)
    ∧ ({ Slot.zero with anchor := 3, count := 32768 } : Slot).count = 32768 := by decide

/-- A stream whose job runs without a fault; one whose pipe 0 has recorded a fault already. -/
theorem witness_streamFaults :
    job0.state = .running ∧ job0.fault = none
    ∧ (let f : StreamFault := { code := 127, detail := 31, pipe := 0, stream := 4, pcc := 2 ^ 40 - 1 }
       f.pipe < job0.rel 1 ∧ f.stream < 8 ∧ f.code < 128 ∧ f.pipe < 256 ∧ f.detail < 32) := by decide

/-! ## Witnesses: windows, posts, holds, mapped ranges -/

/-- The address of slot n of record 0 in the window of pipe 0. -/
abbrev slotVa (n : Nat) : Word := toWord (0xFD0000C0000000 + 8 * n)

/-- A context about to post. -/
def posting (n : Nat) : State := thread [(2, slotVa n), (3, 5)]

/-- A post of a value into slot n of record 0. -/
def postReq (n : Nat) (x : Word) : PostReq := { src := me, space := 0, pipe := pipe0, record := 0, slot := n, value := x, reached := none }

/-- Window 0 open until 0x900 (closed = false), slot 0 posted, slot 1 not. -/
def open0 (close : Nat) : Window :=
  { openAt := 400, closeAt := close, armedAt := 0, armedBy := [0], closed := false, posted := [some 5, none], fixed := [none, none],
    sel := 0, lateAt := none }
def openJob (close : Nat) : Job := { job0 with windows := [(0, open0 close)] }

/-- A post that has reached the pipe; slot 1 has the bound 1 and policy stall, slot 0 the bound 7. -/
def arrived (close n : Nat) (x : Word) : State := { stream .seq (openJob close) [] with ev := .post (postReq n x) }

/-- A context that waits for its slot's answer. -/
def answered (x : PostVerdict) : State :=
  { withMe (posting 1) fun c => { c with mode := .waiting (.pipe none), cur := some (.post always 2 3) } with ev := .verdict me x }

theorem witness_posts :
    (posting 1).guardHolds always = true ∧ (posting 1).me.stores = [] ∧ ((posting 1).ctx ((posting 1).homeOf (posting 1).tf)).updates = []
    ∧ (slotVa 1).toNat % 8 = 0 ∧ (posting 1).classify me (slotVa 1) = .window pipe0 none 8 ∧ (slotVa 1 + 4).toNat % 8 ≠ 0
    ∧ (arrived 600 1 1).postJobs pipe0 = [(0, openJob 600)]
    ∧ (arrived 600 1 1).slotOf (openJob 600) (postReq 1 1) = some (open0 600, ⟨1, 0, true⟩)
    ∧ (arrived 600 0 7).slotOf (openJob 600) (postReq 0 7) = some (open0 600, ⟨7, 3, false⟩)
    ∧ ¬ 600 ≤ ((arrived 600 1 1).part ⟨0, 0⟩).pcc ∧ 500 ≤ ((arrived 500 1 1).part ⟨0, 0⟩).pcc
    ∧ (arrived 600 1 1).jobs.get? 0 = some (openJob 600)
    ∧ ({ posting 1 with ev := .post (postReq 1 1) } : State).postJobs pipe0 = []
    ∧ ((answered .ack).ctx me).mode = .waiting (.pipe none) ∧ ((answered .ack).ctx me).cur = some (.post always 2 3) := by decide

/-- Window 0 about to close: slots 0 and 1 with policy default, or slot 1 with policy stall. -/
def closing (stall : Bool) (posted : List (Option Nat)) : Job :=
  { job0 with
    windows := [(0, { open0 500 with posted := posted })],
    oases := [{ openAt := 400, len := 100, maps := [], slots := [⟨7, 3, false⟩, ⟨1, 0, stall⟩], segtab := none }] }

theorem witness_closes :
    (closing true [some 5, none]).windows.get? 0 = some { open0 500 with posted := [some 5, none] }
    ∧ ((closing true [some 5, none]).oases[0]?.map fun o => (o.slots.length, o.segtab)) = some (2, none)
    ∧ (∀ n < 2, (some 5 :: [some 1])[n]? ≠ some (none : Option Nat)) := by decide

/-- Partition 0 with one hold that names the current cycle, released or not. -/
def holding (release : Option Nat) : State :=
  { (thread []).modPart ⟨0, 0⟩ fun p =>
      { p with formed := true, clusters := [0], pcc := 500, holds := [⟨9, 476, 500, release, .close 9 0⟩] } with ev := .part ⟨0, 0⟩ }

/-- An MXE stream that waits at entry(0) of window 1, closed at 476 with the value 1. -/
def segmented : State :=
  let v : Job := { job0 with windows := [(1, { openAt := 400, closeAt := 476, armedAt := 0, armedBy := [0], closed := true,
                                               posted := [some 1], fixed := [some 1], sel := 0, lateAt := none })] }
  { (stream .mxe v []).modSt fun t => { t with dec := .entry 1 400 } with ev := .stream ⟨pipe0, .mxe⟩ }

/-- A job whose MAXGAP of 50 cycles since its start has passed. -/
def gapped : Job := { job0 with maxgap := 50 }

theorem witness_holds :
    (holding none).holdsNow ⟨0, 0⟩ = true ∧ (holding (some 976)).holdsNow ⟨0, 0⟩ = false ∧ (holding (some 977)).holdsNow ⟨0, 0⟩ = true
    ∧ ((holding none).part ⟨0, 0⟩).group = none ∧ (holding none).jobs.get? 9 = none
    ∧ (segmented.jobs.get? 0).all (fun v => (v.arming 1 400).any fun w => segmented.redirectDue v pipe0 w && w.value w.sel == some 1) = true
    ∧ (segmented.jobs.get? 0).all (fun v => ((v.oases[1]?).map fun o => ((v.segments o)[0]?.isSome, (v.segments o)[1]?.isSome))
        = some (true, true)) = true
    ∧ ((stream .seq gapped []).gapExceeded gapped pipe0) = true := by decide

/-- A thread access to 8 bytes of A at 0x2000 of pipe 0. -/
def access (store : Option Word) : OasisReq := { src := me, space := 0, pipe := pipe0, buf := .a, off := 0x2000, size := 8, store := store, job := none }

/-- The access has reached a pipe whose window 0 is open, or is not. -/
def accessing (close : Nat) (store : Option Word) : State := { stream .seq (openJob close) [] with ev := .access (access store) }

/-- Its waiting context. -/
def accessor (close : Nat) : State := (accessing close none).modCtx me fun c => { c with mode := .waiting (.pipe none) }

/-- Two stored bytes stand in the store buffer. -/
def buffered : State :=
  { (accessing 600 none).modPipe pipe0 fun p => { p with sbuf := [{ line := 0x80, bytes := [(0, 1), (5, 2)] }] } with ev := .pipe pipe0 }

theorem witness_access :
    (accessor 500).admits (access none) = none ∧ ((accessor 500).pipe pipe0).waiters = []
    ∧ ((accessor 500).ctx me).mode = .waiting (.pipe none)
    ∧ (accessing 600 none).admits (access none) = some (0, openJob 600)
    ∧ (let s := (accessing 600 none).modPipe pipe0 fun p => { p with waiters := [access none] }
       (s.pipe pipe0).waiters.contains (access none) = true ∧ s.canServe (access none) = true)
    ∧ (accessing 600 (some 7)).admits (access (some 7)) = some (0, openJob 600)
    ∧ ((accessing 600 none).ctx me).mode = .ready
    ∧ (let b : BankRef := ⟨pipe0, .a, bankOf .a 0x2000⟩
       (((accessing 600 (some 7)).setOwner b ⟨some 0, none⟩).claimBank 0 (openJob 600) none b).canBuffer (access (some 7)) = true)
    ∧ buffered.drainable pipe0 = some { line := 0x80, bytes := [(0, 1), (5, 2)] } := by decide

/-! ## Witnesses: requests, starts, ends, displacement, banks, partitions -/

/-- A context about to issue JOB, its descriptor in w4 to w8. -/
def requesting : State := thread [(4, 0x10000), (5, 1), (8, 1)]

/-- A request for pipe 0 of partition 0. -/
def request (image : Word) : JobReq := { src := me, part := ⟨0, 0⟩, rel := true, image := image, mask := 1, stamp := 64 }

/-- An image of 136 bytes for one pipe: magic, version 1, one pipe, RDV at 0x20000, CRC-32C, MAXGAP 1 and HALTJ for SEQ. -/
def imageWith (crc : Nat) : List Byte :=
  leBytes 4 0x47344A42 ++ leBytes 4 0x10000 ++ leBytes 8 0x100000088 ++ leBytes 8 0x20000 ++ leBytes 4 crc ++ leBytes 4 1
    ++ List.replicate 32 0 ++ leBytes 8 0x100000080 ++ List.replicate 56 0 ++ leBytes 8 0xCD00
def imageBytes : List Byte := imageWith 0x435790AB

/-- The request stands before the front; the image lies at 0x10000. -/
def atFront (r : JobReq) : State :=
  let s := (thread []).modPart ⟨0, 0⟩ fun p => { p with formed := true, clusters := [0], pcc := 500 }
  { s with dram := (imageBytes.zipIdx.filter fun x => x.1 != 0).map fun x => (dramAddr 0 (0x10000 + x.2), x.1), ev := .request r }

theorem witness_requests :
    requesting.guardHolds always = true ∧ requesting.me.stores = [] ∧ (requesting.ctx (requesting.homeOf requesting.tf)).updates = []
    ∧ (4 : Reg).toNat ≤ 11 ∧ 11 < (12 : Reg).toNat
    ∧ ((atFront (request 0x10000)).dev 0).slotWait = none ∧ (atFront (request 0x10000)).victims (request 0x10000) = []
    ∧ (atFront (request 0x10000)).startOf (request 0x10000) = 564 ∧ (atFront (request 0x10000)).refusal (request 0x10000) 564 = none
    ∧ (atFront (request 0x10000)).refusal (request 0x10000) 563 = some 2 ∧ (0x10020 : Word).toNat % 64 ≠ 0 := by decide +kernel

/-- A request that displaces job 0: a frozen job stands on its pipe. -/
def displacing : State :=
  let s := atFront (request 0x10000)
  { s with jobs := [(0, { job0 with pipes := [0], state := .frozen })],
           pipes := [(pipe0.code, { Pipe.reset with job := some 0 })] }

theorem witness_displacing :
    displacing.victims (request 0x10000) = [0]
    ∧ ((requestPipes (request 0x10000)).any fun x => !(displacing.part ⟨0, 0⟩).clusters.contains (x.p / 24)) = false
    ∧ displacing.pipeTaken (request 0x10000) = false
    ∧ (displacing.victims (request 0x10000)).all (displacing.mayDisplace (request 0x10000)) = true := by decide +kernel

/-- The checksum of the image with zeros for its checksum, eight bytes at a time. -/
theorem image_crc : crc32c (imageWith 0) = 0x435790AB := by
  have h0 : ((imageWith 0).drop 0 |>.take 8).foldl crcByte 0xFFFFFFFF = 0x64BB32E9 := by decide +kernel
  have h1 : ((imageWith 0).drop 8 |>.take 8).foldl crcByte 0x64BB32E9 = 0x33897A56 := by decide +kernel
  have h2 : ((imageWith 0).drop 16 |>.take 8).foldl crcByte 0x33897A56 = 0xFC846064 := by decide +kernel
  have h3 : ((imageWith 0).drop 24 |>.take 8).foldl crcByte 0xFC846064 = 0xEA125C4F := by decide +kernel
  have h4 : ((imageWith 0).drop 32 |>.take 8).foldl crcByte 0xEA125C4F = 0x43DD4123 := by decide +kernel
  have h5 : ((imageWith 0).drop 40 |>.take 8).foldl crcByte 0x43DD4123 = 0x54518B6A := by decide +kernel
  have h6 : ((imageWith 0).drop 48 |>.take 8).foldl crcByte 0x54518B6A = 0xBD0B63C1 := by decide +kernel
  have h7 : ((imageWith 0).drop 56 |>.take 8).foldl crcByte 0xBD0B63C1 = 0x2B75D97E := by decide +kernel
  have h8 : ((imageWith 0).drop 64 |>.take 8).foldl crcByte 0x2B75D97E = 0x3E05EA8D := by decide +kernel
  have h9 : ((imageWith 0).drop 72 |>.take 8).foldl crcByte 0x3E05EA8D = 0xAEFDA197 := by decide +kernel
  have h10 : ((imageWith 0).drop 80 |>.take 8).foldl crcByte 0xAEFDA197 = 0xA025BFD8 := by decide +kernel
  have h11 : ((imageWith 0).drop 88 |>.take 8).foldl crcByte 0xA025BFD8 = 0x42D140E5 := by decide +kernel
  have h12 : ((imageWith 0).drop 96 |>.take 8).foldl crcByte 0x42D140E5 = 0x4BD4C213 := by decide +kernel
  have h13 : ((imageWith 0).drop 104 |>.take 8).foldl crcByte 0x4BD4C213 = 0xDA1DE47C := by decide +kernel
  have h14 : ((imageWith 0).drop 112 |>.take 8).foldl crcByte 0xDA1DE47C = 0x796910ED := by decide +kernel
  have h15 : ((imageWith 0).drop 120 |>.take 8).foldl crcByte 0x796910ED = 0xCF2BDD8E := by decide +kernel
  have h16 : ((imageWith 0).drop 128 |>.take 8).foldl crcByte 0xCF2BDD8E = 0xBCA86F54 := by decide +kernel
  have e : imageWith 0 = ((imageWith 0).drop 0 |>.take 8) ++ ((imageWith 0).drop 8 |>.take 8) ++ ((imageWith 0).drop 16 |>.take 8) ++ ((imageWith 0).drop 24 |>.take 8)
      ++ ((imageWith 0).drop 32 |>.take 8) ++ ((imageWith 0).drop 40 |>.take 8) ++ ((imageWith 0).drop 48 |>.take 8) ++ ((imageWith 0).drop 56 |>.take 8)
      ++ ((imageWith 0).drop 64 |>.take 8) ++ ((imageWith 0).drop 72 |>.take 8) ++ ((imageWith 0).drop 80 |>.take 8) ++ ((imageWith 0).drop 88 |>.take 8)
      ++ ((imageWith 0).drop 96 |>.take 8) ++ ((imageWith 0).drop 104 |>.take 8) ++ ((imageWith 0).drop 112 |>.take 8) ++ ((imageWith 0).drop 120 |>.take 8)
      ++ ((imageWith 0).drop 128 |>.take 8) := by decide +kernel
  rw [crc32c, e]
  simp only [List.foldl_append, h0, h1, h2, h3, h4, h5, h6, h7, h8, h9, h10, h11, h12, h13, h14, h15, h16]
  rfl

/-- The image passes every check of Table 15. -/
theorem witness_image : (atFront (request 0x10000)).imageCheck (request 0x10000) = .ok imageBytes := by
  have h1 : (atFront (request 0x10000)).frontRange (request 0x10000) 0x10000 64 .read = true := by decide +kernel
  have h2 : (atFront (request 0x10000)).frontRange (request 0x10000) 0x10000 136 .read = true := by decide +kernel
  have h3 : (atFront (request 0x10000)).frontBytes (request 0x10000) 0x10000 64 = imageBytes.take 64 := by decide +kernel
  have h4 : (atFront (request 0x10000)).frontBytes (request 0x10000) 0x10000 136 = imageBytes := by decide +kernel
  have h5 : (request 0x10000).image.toNat = 0x10000 := rfl
  have h6 : Nat.max 64 (imageNum (imageBytes.take 64) 8 4) = 136 := by decide +kernel
  have h7 : (readImage imageBytes).length = 136 := by decide +kernel
  have h8 : (imageBytes.take 0x18 ++ [0, 0, 0, 0] ++ imageBytes.drop 0x1C).take 136 = imageWith 0 := by decide +kernel
  unfold State.imageCheck
  simp only [h5, h3, h6, h4, h7]
  rw [h8, image_crc, if_neg (by rw [h1]; decide), if_neg (by rw [h2]; decide), if_neg (by decide +kernel), if_neg (by decide +kernel),
    if_neg (by decide +kernel), if_neg (by decide +kernel), if_neg (by decide +kernel), if_neg (by decide +kernel),
    if_neg (by decide +kernel), if_neg (by decide +kernel), if_neg (by decide +kernel), if_neg (by decide +kernel)]

/-- Job 0 on pipe 0 alone, with no shapes or records, in a state. -/
def oneJob (f : Job → Job) : State :=
  let v := f { job0 with pipes := [0], shapes := [], oases := [], segtabs := [], rdv := 0x20000 }
  { (stream .seq v []) with ev := .job 0 }
def theJob (s : State) : Job := (s.jobs.get? 0).getD job0

/-- Its streams have all ended. -/
def doneJob : State := (oneJob id).modSt fun t => { t with dec := .ended }

/-- The fault of a frozen job. -/
def aFault : StreamFault := { code := 3, detail := 1, pipe := 0, stream := 2, pcc := 499 }

theorem witness_ends :
    (theJob (oneJob id)).refs = [pipe0] ∧ ((oneJob id).stream ⟨pipe0, .seq⟩).started = true
    ∧ (((oneJob id).modSt fun t => { t with dec := .idle }).stream ⟨pipe0, .seq⟩).dec = .idle
    ∧ doneJob.jobFinished 0 (theJob doneJob) = true
    ∧ doneJob.recordMoves (theJob doneJob) = false
    ∧ (((doneJob.freeBanks 0 0).leavePipes 0 (theJob doneJob)).storeRecord (theJob doneJob) [(16, 0), (24, 0), (0, 0)]).isSome = true
    ∧ (let s := oneJob fun v => { v with state := .frozen, fault := some aFault }
       (theJob s).fault = some aFault ∧ (theJob s).state = .frozen ∧ (theJob s).recorded = false ∧ s.jobBusy 0 = false
       ∧ (theJob s).milestones = [] ∧ s.recordMoves (theJob s) = false) := by decide

/-- A suspended job whose small state is saved. -/
def parked : State :=
  let s := oneJob fun v => { v with state := .suspended, savedAt := some 900, stopAt := 450, windows := [(0, open0 480)] }
  s.modPipe pipe0 fun p => { p with job := none, suspended := some 0, saved := some ((oneJob id).smallState pipe0) }

/-- A request that waits for its victim, job 0. -/
def waitingRequest : State :=
  { (oneJob fun v => { v with wanted := true }).modPart ⟨0, 0⟩ fun p => { p with requests := [(400, request 0x10000, [0])] } with
    ev := .request (request 0x10000) }

theorem witness_displacement :
    (theJob (oneJob fun v => { v with wanted := true })).state = .running
    ∧ (theJob (oneJob fun v => { v with wanted := true })).wanted = true
    ∧ ((oneJob fun v => { v with wanted := true }).pipe pipe0).job = some 0
    ∧ parked.mayResume (theJob parked) = true ∧ (parked.pipe pipe0).saved = some ((oneJob id).smallState pipe0)
    ∧ (let s := oneJob fun v => { v with state := .suspended, savedAt := none }
       (theJob s).state = .suspended ∧ (theJob s).savedAt = none)
    ∧ waitingRequest.requested (request 0x10000) = true
    ∧ (theJob (oneJob fun v => { v with state := .frozen })).state = .frozen
    ∧ (theJob (oneJob fun v => { v with aligned := true })).aligned = true := by decide

/-- Bank 3 of W of pipe 0 with an owner. -/
abbrev bank3 : BankRef := ⟨pipe0, .w, 3⟩
def owned (o : Owner) : State := { (stream .lde job0 []).setOwner bank3 o with ev := .bank bank3 }

theorem witness_banks :
    ((owned ⟨some 0, none⟩).owner bank3).job = some 0 ∧ ((owned ⟨some 7, none⟩).owner bank3).job ≠ some 0
    ∧ ({ job0 with images := [(0, bankCode .w 3)] } : Job).images.contains (bank3.pipe.code, bankCode bank3.buf bank3.n) = true
    ∧ job0.images.contains (bank3.pipe.code, bankCode bank3.buf bank3.n) = false
    ∧ ((owned ⟨none, some 0⟩).owner bank3).last = some job0.space ∧ ((owned ⟨none, some 9⟩).owner bank3).last ≠ some job0.space
    ∧ (owned ⟨some 7, none⟩).suspendedOn pipe0 = none
    ∧ (let s := (owned ⟨some 7, none⟩).modPipe pipe0 fun p => { p with suspended := some 0 }
       s.suspendedOn pipe0 = some (0, job0) ∧ s.bankTouched bank3 = false
       ∧ (let t := s.modPipe pipe0 fun p =>
            { p with ops := [(9, { (stream .lde job0 []).newOp 0 job0 (.ldw 3) [] 2 with dsts := [⟨pipe0, .w, 3 * 2 ^ 17, 64⟩] })] }
          t.bankTouched bank3 = true)) ∧ (owned ⟨some 0, none⟩).wbuf.wf = true := by decide

/-- Partition 0 formed of cluster 0, partition 1 of device 1 formed too. -/
def parts2 (op : Operand) : State :=
  { ((thread []).modPart ⟨0, 0⟩ fun p => { p with formed := true, clusters := [0], pcc := 50 }).modPart ⟨1, 1⟩ fun p =>
      { p with formed := true, clusters := [1], pcc := 40 } with ev := op }

theorem witness_partitions :
    ((parts2 .none).part ⟨0, 1⟩).formed = false
    ∧ ((List.range 8).any fun i => ((parts2 .none).part ⟨0, i⟩).formed && ((parts2 .none).part ⟨0, i⟩).clusters.any fun c => [1, 7].contains c)
        = false
    ∧ ((List.range 8).any fun i => ((parts2 .none).part ⟨0, i⟩).formed && ((parts2 .none).part ⟨0, i⟩).clusters.any fun c => [7, 0].contains c)
        = true
    ∧ ((parts2 .none).part ⟨0, 0⟩).formed = true ∧ ((parts2 .none).part ⟨0, 0⟩).group = none
    ∧ ((parts2 .none).part ⟨1, 1⟩).pcc ≤ 50 ∧ (parts2 .none).jobsOf ⟨1, 1⟩ = [] ∧ 50 < 2 ^ 64
    ∧ 49 < ((parts2 .none).part ⟨0, 0⟩).pcc := by decide

/-! ## Witnesses: queues, packets, graphs, termination -/

/-- Device 0 with its queue table at 0x40000. -/
def fronted : State :=
  (thread []).modDev 0 fun v =>
    { v with config := { v.config with qbase := 0x40000 }, tlb := [page 1 0x10000, page 1 0x20000, page 1 0x30000] }

/-- Queue 0 of device 0: ring of 16 slots at 0x10000, completion record at 0x20000, space 1. -/
def queue0 (ps : List Packet) : Queue :=
  { Queue.reset with state := 0, en := true, ring := 0x10000, logn := 4, compl := 0x20000, tvec := 0x2000, space := 1, packets := ps }

/-- A state whose queue 0 is q. -/
def withQueue (q : Queue) : State := { fronted.modQueue 0 0 fun _ => q with ev := .queue 0 0 }

/-- The 64 bytes of a packet: word 0, its CRC-32C, words 2 and 3. -/
def packet64 (w0 crc w2 w3 : Nat) : List Byte :=
  leBytes 8 w0 ++ leBytes 4 0 ++ leBytes 4 crc ++ leBytes 8 w2 ++ leBytes 8 w3 ++ List.replicate 32 0

/-- The packet lies at the head of queue 0's ring, and its descriptor in the queue table. -/
def ringWith (bs : List Byte) : State :=
  let put (m : Memory) (a : Nat) (l : List Byte) : Memory :=
    m ++ ((l.zipIdx.filter fun x => x.1 != 0).map fun x => (dramAddr 0 (a + x.2), x.1))
  let s := withQueue { queue0 [] with fetching := true }
  { s with dram := put (put s.dram 0x10000 bs) 0x40000 (
      leBytes 8 0x10000 ++ leBytes 8 (2 ^ 61 + 4 * 2 ^ 56 + 2 ^ 32) ++ leBytes 8 0x20000 ++ leBytes 8 0x2000) }

/-- A SIGNAL with INT: store 9 at 0x20040. -/
abbrev signalWord : Nat := 5 * 2 ^ 56 + 2 ^ 54

theorem witness_fetch :
    ((ringWith (packet64 signalWord 0xFA2424AE 0x20040 9)).queue 0 0).fetching = true
    ∧ (((ringWith (packet64 signalWord 0xFA2424AE 0x20040 9)).loadQueue 0 0).queue 0 0).state = 0
    ∧ (((ringWith (packet64 signalWord 0xFA2424AE 0x20040 9)).loadQueue 0 0).dev 0).served = true
    ∧ (ringWith (packet64 signalWord 0xFA2424AE 0x20040 9)).newHead 0 0 = some (packet64 signalWord 0xFA2424AE 0x20040 9)
    ∧ longHead (packet64 signalWord 0xFA2424AE 0x20040 9) = false
    ∧ packetOk (wordsOf (packet64 signalWord 0xFA2424AE 0x20040 9)) = true
    ∧ (ringWith (packet64 signalWord 0 0x20040 9)).newHead 0 0 = some (packet64 signalWord 0 0x20040 9)
    ∧ (ringWith (packet64 (9 * 2 ^ 56) 0x01D5AE75 0x20040 9)).newHead 0 0 = some (packet64 (9 * 2 ^ 56) 0x01D5AE75 0x20040 9)
    ∧ packetOk (wordsOf (packet64 (9 * 2 ^ 56) 0x01D5AE75 0x20040 9)) = false := by decide +kernel

theorem witness_packetCrc :
    packetCrcOk (packet64 signalWord 0xFA2424AE 0x20040 9) = true ∧ packetCrcOk (packet64 signalWord 0 0x20040 9) = false
    ∧ packetCrcOk (packet64 (9 * 2 ^ 56) 0x01D5AE75 0x20040 9) = true := by decide +kernel

/-- A fetched packet of a kind, with words 2 to 4. -/
def packetOf (kind : Nat) (w2 w3 w4 : Word) : Packet :=
  { seq := 0, kind := kind, int := true, words := [toWord (kind * 2 ^ 56), 0, w2, w3, w4, 0, 0, 0], taken := false, started := false,
    copy := .none, done := none }

/-- It stands at the head of queue 0. -/
def heading (p : Packet) : State := withQueue (queue0 [p])

/-- The words of a LAUNCH on core (3, 2): workspaces end at 2.5 KiB, the scratchpad at 128 KiB, the L1 at 256 KiB. -/
def launchOf : Packet := packetOf 1 0x11000 (toWord (5 * 2 ^ 20 + 256 * 2 ^ 10 + 512)) (toWord (2 * 2 ^ 60 + 3 * 2 ^ 16 + 2 * 2 ^ 11 + 3 * 2 ^ 5 + 2))

/-- A graph of one SIGNAL node at 0x11000, its statuses at 0x30000. -/
def signalNode : List Word := [toWord (4 * 2 ^ 56), 0xFFFFFFFFFFFFFFFF, 0x20040, 9, 0, 0, 0, 0]
def graphAt : State :=
  let s := heading (packetOf 2 0x11000 0 0)
  { s with dram := [(dramAddr 0 0x11000, 1), (dramAddr 0 0x11008, 0x40), (dramAddr 0 0x11009, 0x10), (dramAddr 0 0x1100A, 1),
      (dramAddr 0 0x11012, 3), (dramAddr 0 0x11047, 4)] ++ (List.range 8).map (fun k => (dramAddr 0 (0x11048 + k), 0xFF))
      ++ [(dramAddr 0 0x11050, 0x40), (dramAddr 0 0x11052, 2), (dramAddr 0 0x11058, 9)] }

theorem witness_packets :
    (heading launchOf).takeable 0 0 = some launchOf
    ∧ ((heading launchOf).take 0 0 launchOf).launchOk 0 (launchOf.words ++ [0, 0]) = true
    ∧ ((heading launchOf).take 0 0 launchOf).launchOk 0 ((packetOf 1 0x11000 0 0).words ++ [0, 0]) = false
    ∧ (heading (packetOf 1 0x11000 0 0)).takeable 0 0 = some (packetOf 1 0x11000 0 0)
    ∧ graphAt.takeable 0 0 = some (packetOf 2 0x11000 0 0)
    ∧ (graphAt.take 0 0 (packetOf 2 0x11000 0 0)).readGraph 0 1 0x11000 = some ([1, 0x11040, 0x30000, 0], [signalNode])
    ∧ ((heading (packetOf 2 0x11000 0 0)).take 0 0 (packetOf 2 0x11000 0 0)).readGraph 0 1 0x11000 = none
    ∧ (heading (packetOf 3 0x10000 0x20000 8)).takeable 0 0 = some (packetOf 3 0x10000 0x20000 8)
    ∧ (heading (packetOf 4 0x20040 9 0)).takeable 0 0 = some (packetOf 4 0x20040 9 0)
    ∧ (heading (packetOf 5 0x20040 9 0)).takeable 0 0 = some (packetOf 5 0x20040 9 0)
    ∧ (heading (packetOf 6 0 0 0)).takeable 0 0 = some (packetOf 6 0 0 0)
    ∧ packetOk launchOf.words = true ∧ packetOk (packetOf 1 0x11000 0 0).words = true
    ∧ ([packetOf 2 0x11000 0 0, packetOf 3 0x10000 0x20000 8, packetOf 4 0x20040 9 0, packetOf 5 0x20040 9 0, packetOf 6 0 0 0].all
        fun p => packetOk p.words) = true
    ∧ (heading launchOf).launchOk 0 (launchWords launchOf.words) = true
    ∧ (heading (packetOf 9 0 0 0)).takeable 0 0 = some (packetOf 9 0 0 0) ∧ packetOk (packetOf 9 0 0 0).words = false := by decide +kernel

/-- Thread job 7 of queue 0 on core (3, 2), with a state and a last wave. -/
def job7 (st : TJobState) (wave : Nat × Nat) : TJob :=
  { aJob with rect := 3 * 2 ^ 16 + 2 * 2 ^ 11 + 3 * 2 ^ 5 + 2, state := st, wave := wave, seq := 0, space := 1 }

/-- It runs, or is placed, behind its packet. -/
def launched (v : TJob) (op : Operand) : State :=
  { withQueue (queue0 [{ launchOf with taken := true }]) with tjobs := [(7, v)], serial := 8, ev := op }

/-- A core of its steal set holds an entry. -/
def withEntry (v : TJob) : State :=
  { launched v (.tjob 7) with
    cores := [(0, { plainCore with steal := some { tjob := 7, probing := none, first := none }, dqLen := 1 })] }

theorem witness_placement :
    (launched (job7 .placing (0, 0)) (.place 7 (.thread 0 3 2))).tjobs.get? 7 = some (job7 .placing (0, 0))
    ∧ (launched (job7 .placing (0, 0)) (.place 7 (.thread 0 3 2))).placementWaits (job7 .placing (0, 0)) = false
    ∧ (((launched (job7 .placing (0, 0)) (.place 7 (.thread 0 3 2))).jobCores 0 (job7 .placing (0, 0)).rect.toNat).filter
        fun c => (launched (job7 .placing (0, 0)) (.place 7 (.thread 0 3 2))).rootCore 7 c) = [.thread 0 3 2]
    ∧ (let s := (launched (job7 .placing (0, 0)) (.place 7 (.thread 0 3 2))).modQueue 0 0 fun v => { v with state := 2 }
       s.placementWaits (job7 .placing (0, 0)) = true)
    ∧ ((withQueue { queue0 [] with intDue := some 1000 }).queue 0 0).intDue = some 1000 := by decide +kernel

theorem witness_termination :
    (launched (job7 .running (0, 0)) (.tjob 7)).waveKind 7 (job7 .running (0, 0)) = 1
    ∧ (withEntry (job7 .running (0, 0))).dequeCount 7 ≠ 0
    ∧ (job7 .suspended (1, 0)).state ≠ .running ∧ (job7 .running (1, 0)).wave.1 = 1 ∧ (job7 .running (2, 0)).wave.1 = 2
    ∧ (job7 .running (1, 0)).node = none := by decide

/-- Graph 5 of one node, which is about to start, or runs. -/
def graph5 (node : List Word) (status : Nat) : State :=
  let v : Graph :=
    { dev := 0, queue := 0, seq := 0, space := 1, nodes := [node], stat := 0x30000, status := [(0, status)], ended := [],
      iterations := [], going := if status = 0 then [0] else [], copies := [(0, .of 4)], unstored := [], failed := false, cause := 0 }
  { withQueue (queue0 [{ packetOf 2 0x11000 0 0 with taken := true }]) with graphs := [(5, v)], serial := 6, ev := .node 5 0 }

/-- A node record of a kind. -/
def nodeOf (kind : Nat) (w2 w3 w4 : Word) : List Word := [toWord (kind * 2 ^ 56), 0xFFFFFFFFFFFFFFFF, w2, w3, w4, 0, 0, 0]

theorem witness_graphs :
    (graph5 (nodeOf 2 0x10000 0x20000 8) 1).frontOp 2 (.node 5 0) = some (0, 0, 1, nodeOf 2 0x10000 0x20000 8)
    ∧ ((graph5 [] 1).copyWork (.node 5 0)).due ≠ [] ∧ ((withQueue (queue0 [packetOf 3 0x10000 0x20000 0])).copyWork (.pkt 0 0 0)).due = []
    ∧ ((queue0 [packetOf 3 0x10000 0x20000 8]).packets.any fun p => p.seq == 0) = true
    ∧ (graph5 [] 1).linesMove 0 1 .read 4 0x20040 8 = false ∧ (graph5 [] 1).storeMoves 0 1 4 0x20040 8 = false
    ∧ (graph5 (nodeOf 3 0x20040 9 0) 1).frontOp 3 (.node 5 0) = some (0, 0, 1, nodeOf 3 0x20040 9 0)
    ∧ (graph5 [] 1).virtWord 0 1 4 false 0x20040 = some 0 ∧ (graph5 [] 1).virtWord 0 1 4 false 0x50040 = none
    := by decide +kernel

/-- A copy of four bytes reads them first. -/
theorem frontCopyStep_read (s : State) (d : Nat) (space : BitVec 16) (o : Operand) (src dst : Nat) (h : s.copyWork o = .of 4)
    (hs : src % 8 = 0) (hd : dst % 8 = 0) (hm : s.linesMove d space .read 4 src 4 = false) :
    s.frontCopyStep d space o src dst = (s.virtGet d space 4 src 4).map fun bs =>
      ({ s with fresh := s.fresh + 4 } : State).setCopyWork o
        { CopyWork.of 4 with left := cutRange [(0, 4)] 0 4, got := Memory.setBytes [] 0 bs } := by
  simp [State.frontCopyStep, State.pick, h, CopyWork.of, piece_word _ _ hs, piece_word _ _ hd, hm]

theorem witness_frontCopy :
    (∃ t, (graph5 [] 1).frontCopyStep 0 1 (.node 5 0) 0x10000 0x20000 = some t)
    ∧ (graph5 [] 1).frontCopyStep 0 1 (.node 5 0) 0x50000 0x20000 = none := by
  constructor
  · rw [frontCopyStep_read _ _ _ _ _ _ (by decide) (by decide) (by decide) (by decide +kernel)]
    exact Option.isSome_iff_exists.mp (by simp only [Option.isSome_map]; decide +kernel)
  · rw [frontCopyStep_read _ _ _ _ _ _ (by decide) (by decide) (by decide) (by decide +kernel)]
    exact Option.map_eq_none_iff.mpr (by decide +kernel)

theorem witness_nodes :
    (graph5 (nodeOf 4 0x20040 9 0) 1).frontOp 4 (.node 5 0) = some (0, 0, 1, nodeOf 4 0x20040 9 0)
    ∧ ((graph5 [] 1).virtStore 0 1 4 0x20040 8 9).isSome = true ∧ ((graph5 [] 1).virtStore 0 1 4 0x50040 8 9).isNone = true
    ∧ ((graph5 (nodeOf 6 0x20040 9 0) 0).graphs.get? 5).all (fun v => v.going.contains 0 && v.stOf 0 == 0 && !v.failed) = true
    ∧ (graph5 [] 0).launchOk 0 (launchOf.words.take 8) = true ∧ (graph5 [] 0).launchOk 0 ((nodeOf 1 0x11000 0 0).take 8) = false := by
  decide +kernel

/-- Queue 0 in a state, for a cause, with a culprit. -/
def queueIn (state cause : Nat) (who : Operand) : State :=
  withQueue { queue0 [{ packetOf 1 0x11000 0 0 with taken := true }] with state := state, cause := cause, culprit := who }

theorem witness_qctl :
    ((queueIn 0 0 .none).queue 0 0).state = 0 ∧ ((queueIn 2 10 .none).queue 0 0).state = 2
    ∧ ((queueIn 1 3 (.pkt 0 0 0)).queue 0 0).state = 1 ∧ ((queueIn 1 3 (.pkt 0 0 0)).queue 0 0).culprit = .pkt 0 0 0
    ∧ ((queueIn 1 2 .none).queue 0 0).cause = 2 ∧ ((queueIn 1 11 .none).queue 0 0).cause = 11
    ∧ (queueIn 0 0 .none).bridgeOf 0 = none := by decide

/-- Device 0 bridges its group, in which it is the first member. -/
theorem witness_bridge :
    let s := (queueIn 0 0 .none).modDev 0 fun v => { v with config := { v.config with bridge := true } }
    let ask (s : State) (r : HostReq) : State := s.modDev 0 fun v => { v with heldBar2 := v.heldBar2 ++ [r] }
    s.bridgeOf 0 = some 0 ∧ (s.dev 0).heldBar2 = [] ∧ (ask s (.wake 0 3)).heldAtBridge 0 (.wake 0 3) = false
    ∧ (let u := (s.modDev 1 fun v => { v with power := 1, bootStatus := 0, config := { v.config with group := 1 } }).modDev 0 fun v => { v with heldBar2 := [.write 0x8000000000 [1]] }
       (ask u (.wake 0 3)).heldAtBridge 0 (.write 0x8000000000 [1]) = true) := by decide

/-! ## Witnesses: host, power, boot, side band, snapshots -/

/-- Device 0 bridges its group and is its own first member; entry 0 of its table admits reads and writes of [0, 2 MiB). -/
def bridging (op : Operand) : State :=
  let s := (thread []).modDev 0 fun v => { v with config := { v.config with bridge := true, group := 0, roottab := 0x40000 } }
  { s with dram := [(dramAddr 0 0x40004, 0x80), (dramAddr 0 0x40007, 0xE0), (dramAddr 0 0x4000A, 0x20)], ev := op }

theorem witness_host :
    ((bridging .none).dev 0).config.bridge = true ∧ (bridging .none).groupDev 0 0 = some 0 ∧ (bridging .none).groupDev 0 7 = none
    ∧ ((bridging .none).dev 0).heldBar2 = [] ∧ ((bridging .none).dev 0).power = 0 ∧ ((bridging .none).dev 0).waking = false
    ∧ ((List.range 16).any fun i => (bridging .none).hostEntry 0 0 0x1000 8 false i) = true
    ∧ ((List.range 16).any fun i => (bridging .none).hostEntry 0 0 0x1FFFF8 8 true i) = true
    ∧ ((List.range 16).any fun i => (bridging .none).hostEntry 0 0 0x1FFFF9 8 true i) = false
    ∧ ((List.range 16).any fun i => (bridging .none).hostEntry 0 0 0x200000 8 false i) = false
    ∧ (bridging .none).groupDev 0 (0x10 / 2 ^ 23) = some 0 ∧ (bridging .none).groupDev 0 ((2 ^ 23 + 0x10) / 2 ^ 23) = none
    ∧ (let stands (s : State) : State := s.modDev 0 fun v => { v with heldBar2 := v.heldBar2 ++ [.read 0x1000 8 5] }
       (stands (bridging .none)).heldAtBridge 0 (.read 0x1000 8 5) = false
       ∧ (stands ((bridging .none).modDev 0 fun v => { v with waking := true })).heldAtBridge 0 (.read 0x1000 8 5) = true
       ∧ (((bridging .none).modDev 0 fun v => { v with waking := true }).dev 0).power = 0) := by decide +kernel

/-- Device 0 idle since cycle 10, to be gated after 0 ms and a while; its context is gone. -/
def idleDev : State :=
  { State.reset with
    wcc := 2000, ev := .dev 0,
    devs := [(0, { plainDev with idleSince := some 10, config := { plainDev.config with idle := 1 } })] }

/-- Device 0 in a power state, with a boot status. -/
def powered (power boot : Nat) (waking : Bool) (op : Operand) : State :=
  { State.reset with devs := [(0, { plainDev with power := power, bootStatus := boot, waking := waking })], ev := op }

theorem witness_power :
    idleDev.gateDue 0 = true ∧ (thread []).gateDue 0 = false ∧ ((powered 1 0 true (.dev 0)).dev 0).waking = true
    ∧ (State.reset.dev 0).bootStatus = 1 ∧ (State.reset.dev 0).power = 0
    ∧ ((powered 2 1 false (.devNum 0 0)).dev 0).power = 2 ∧ ((powered 1 0 false (.devNum 0 0)).dev 0).power = 1
    ∧ ((powered 0 0 false (.devNum 0 2)).dev 0).power ≠ 2 ∧ ((powered 2 4 false (.dev 0)).dev 0).bootStatus = 4
    ∧ State.reset.wcc ≤ 0 := by decide

/-- An empty flash holds no table that the boot engine accepts: it names no core of role 1. -/
theorem witness_boot :
    tableAccepted 0 0 (State.reset.flash.getBytes (flashBase 0) 0x100) (State.reset.flash.getBytes (flashBase 0 + 0x100) 2820) = false := by
  have h : (tableConfig (State.reset.flash.getBytes (flashBase 0) 0x100)).roleCodes.contains 1 = false := by decide +kernel
  unfold tableAccepted
  rw [h, Bool.and_false]

theorem witness_snapshots :
    ((thread []).dev 0).snapWriting = false ∧ ((thread []).dev 0).leaf < 2 ^ 20
    ∧ (((thread []).modDev 0 fun v => { v with snapWriting := true, leaf := 2 ^ 20 }).dev 0).snapWriting = true
    ∧ 2 ^ 20 ≤ (((thread []).modDev 0 fun v => { v with snapWriting := true, leaf := 2 ^ 20 }).dev 0).leaf := by decide

/-! ## Witnesses: the fabric, Ultra Ethernet -/

/-- Switch 4 in a state. -/
def switched (v : Switch) (op : Operand) : State := { thread [] with switches := [(4, v)], ev := op }

/-- Port 3 of device 0 in a state. -/
def ported (v : Port) (op : Operand) : State := { (thread []).modPort 0 3 fun _ => v with ev := op }

/-- A message from device 1 with sequence number 9: KIND 4, SRC 1, KEY 2, SPACE 1, no encryption. -/
def aMessage : Message :=
  { src := ⟨.thread 1 0 0, 0⟩, space := 1, dest := .thread 0 0 0, cls := 3, words := [9], remote := true, mcast := false, rest := [],
    refused := false, id := 0, tjob := none }
def aPacket : FabricPacket := { w0 := 0x4000001000100001, w1 := 0x90F821D35, tagOk := true, content := .message aMessage }

/-- A port with key slot 2 loaded for space 1. -/
def keyed : Port := { Port.reset with keys := [(2, { key := [], outbound := 0, inbound := 0, spaces := [1] })] }

theorem witness_losses :
    ((switched Switch.reset .none).switch 4).up = true
    ∧ ((switched { Switch.reset with up := false } .none).switch 4).up = false ∧ Switch.reset.inc < 63
    ∧ (switched { Switch.reset with filling := true } .none).primary 2 = some 5
    ∧ ((ported Port.reset .none).port 0 3).up = true ∧ ((ported Port.reset .none).port 0 3).retraining = false
    ∧ ((ported Port.reset .none).port 0 3).replays < 3 ∧ 3 ≤ ((ported { Port.reset with replays := 3 } .none).port 0 3).replays
    ∧ ((ported { Port.reset with retraining := true } .none).port 0 3).retraining = true := by decide

theorem witness_packetsAndKeys :
    headerOk aPacket = true ∧ headerOk { aPacket with w1 := aPacket.w1 + 1 } = false
    ∧ ((ported keyed .none).port 0 3).admits aPacket = true ∧ ((ported Port.reset .none).port 0 3).admits aPacket = false
    ∧ kindMatches aPacket = true ∧ wbits aPacket.w0 18 1 = 0 ∧ wbits aPacket.w0 36 8 = 1 ∧ wbits aPacket.w1 32 32 = 9
    ∧ (((ported keyed .none).dev 0).seen.get? 1).getD [] = [] ∧ keyed.before aPacket = false
    ∧ ({ keyed with retraining := true } : Port).before aPacket = true
    ∧ ({ keyed with retry := [{ aPacket with w0 := 0 }, aPacket] } : Port).before aPacket = true := by decide +kernel

/-- R296: core (x, y) with x + y = 3 of a device whose four alternatives are all there, then without entry 3; R286: entries of a
table that the fabric manager wrote. -/
theorem test_paths :
    (thread []).path (.thread 0 2 1) 0 0 = some 3
    ∧ ((thread []).modPort 0 3 fun v => { v with up := false }).path (.thread 0 2 1) 0 0 = some 0
    ∧ ((thread []).modDev 0 fun v => { v with paths := [(2, [none, some 9, none, none])] }).path (.thread 0 2 1) 0 2 = some 9 := by decide

/-- Queue 1 of the service on device 0, in space 0, with one posted receive of 64 bytes at 0x10000 and a request outstanding. -/
def ueWords : List Word := [toWord (3 * 2 ^ 56 + 64), 0x10000, 0, 0, 0, 0x20040, 0, 0]
def ueState (op : Operand) : State :=
  { (thread []).modUe 0 1 fun u =>
      { u with consumer := 4, receives := [ueWords], outstanding := [(3, ueWords)], regions := [(77, (0x10000, 256))] } with ev := op }

theorem witness_ultraEthernet :
    ((ueState .none).ue 0 1).outstanding.get? 3 = some ueWords ∧ ((ueState .none).ue 0 1).receives = [ueWords]
    ∧ requestLen ueWords = 64
    ∧ (((ueState .none).modUe 0 1 fun u => { u with receives := [] }).virtPut 0 0 0 0x10000 [1, 2, 3]).isSome = true
    ∧ ((ueState .none).ue 0 1).regions.get? 77 = some (0x10000, 256) ∧ 3 ≤ ((ueState .none).ue 0 1).consumer
    ∧ ((ueState .none).virtPut 0 0 0 (0x10000 + 253) [1, 2, 3]).isSome = true ∧ (256 : Nat) < 254 + 3
    ∧ ((ueState .none).ue 0 0).receives = [] ∧ ((ueState .none).ue 0 1).landings = []
    ∧ ((((ueState .none).modUe 0 1 fun u => { u with peers := [7], nextIn := [(7, 2)] }).ue 0 1).peers[wbits (wordAt ueWords 2) 0 16]?) = some 7
    ∧ ((((ueState .none).modUe 0 1 fun u => { u with nextIn := [(7, 2)] }).ue 0 1).nextIn.get? 7).getD 0 = 2
    ∧ ((ueState .none).virtGet 0 ((ueState .none).ue 0 1).space ueClass (wordAt ueWords 1).toNat 2) = some [0, 0] := by decide

/-! ## Witnesses: the domain as a whole -/

/-- One legal instruction with a thread word, one with a pair of words, one of each stream engine. -/
theorem witness_encodings :
    (Instr.add ⟨0, 7⟩ 1 2 3).wf = true ∧ (Instr.add ⟨0, 7⟩ 1 2 3).isThread = true
    ∧ (Instr.lit 5).wf = true ∧ Instr.rdv.wf = true ∧ (Instr.mma 1 0 0 0).wf = true ∧ (Instr.vadd 2).wf = true ∧ Instr.cpah.wf = true
    ∧ (Instr.lit 5).isWordOf .seq = true ∧ (Instr.ldw 0).isWordOf .lde = true ∧ (Instr.mma 1 0 0 0).isWordOf .mxe = true
    ∧ (Instr.vadd 2).isWordOf .vxe = true ∧ Instr.cpah.isWordOf .cpe = true := by decide

/-- ADD w1, w2, w3 where the next step fetches: the memories are in their canonical form, and the step answers a next state. -/
theorem witness_invariant :
    (let s := State.reset.withFetchWord 32 0x04048C00
     s.pool.wf = true ∧ s.dram.wf = true ∧ s.wbuf.wf = true ∧ s.abuf.wf = true ∧ s.flash.wf = true ∧ s.tier.wf = true
     ∧ (match step s with | .next _ => true | _ => false) = true) := by decide +kernel

/-- A context at 0x1000 about to issue the bytes there. -/
def issuing (bs : List Byte) : State :=
  { thread [(2, 5), (3, 7)] with phase := 3, dram := (bs.zipIdx.filter fun x => x.1 != 0).map fun x => (dramAddr 0 (0x1000 + x.2), x.1) }

theorem witness_issue :
    (let s := issuing (leBytes 4 0x04048C00)
     s.phase = 3 ∧ s.cores = [] ++ (0, plainCore) :: [] ∧ s.coreRuns (.ofCode 0) = true
     ∧ ((List.range 16).all fun m => (s.ctx ⟨.ofCode 0, m⟩).mode != .resume) = true ∧ plainCore.stall ≤ s.wcc
     ∧ plainCore.lastIssue ≠ some s.wcc ∧ (plainCore.rot.find? fun m => s.mayIssue (.ofCode 0) plainCore m) = some 0
     ∧ s.fetchBytes me 0x1000 4 = .ok (leBytes 4 0x04048C00) ∧ wordOf (leBytes 4 0x04048C00) / 2 ^ 26 % 64 ≠ 0x3F
     ∧ decodeThread (wordOf (leBytes 4 0x04048C00)) = some (.add always 1 2 3))
    ∧ (issuing (leBytes 4 0xFFFFFFFF)).fetchBytes me 0x1000 4 = .ok (leBytes 4 0xFFFFFFFF)
    ∧ (let s := (issuing (leBytes 4 0)).modDev 0 fun v => { v with tlb := [] }
       s.fetchBytes me 0x1000 4 = .error 3) := by decide +kernel

theorem witness_streams :
    (let s := { stream .seq job0 [] with phase := 1 }
     s.activePipes false ++ s.activePipes true = [] ++ (pipe0, 0, job0) :: [(⟨0, 1⟩, 0, job0)]
     ∧ (s.part job0.part).held = false ∧ (s.pipe pipe0).budgetHeld = false ∧ (s.stream ⟨pipe0, .seq⟩).dec = .decoding
     ∧ (s.stream ⟨pipe0, .seq⟩).budget < 4 ∧ job0.entryAt (s.stream ⟨pipe0, .seq⟩) .seq = none
     ∧ (s.stream ⟨pipe0, .seq⟩).code[(s.stream ⟨pipe0, .seq⟩).pos]? = some 5 ∧ decodeStream .seq 5 = some (.lit 5)
     ∧ isFreeWord (.lit 5) = true ∧ isFreeWord .rdv = false
     ∧ (s.streamTurn 0 job0 ⟨pipe0, .mxe⟩).isNone = true ∧ (s.streamTurn 0 job0 ⟨pipe0, .lde⟩).isNone = true
     ∧ (s.streamTurn 0 job0 ⟨pipe0, .vxe⟩).isNone = true ∧ (s.streamTurn 0 job0 ⟨pipe0, .cpe⟩).isNone = true)
    ∧ streamOrder = [.mxe, .lde, .vxe, .cpe] ++ .seq :: [] := by decide

/-- All devices have booted; one event is due. -/
def dueEvent : State :=
  { State.reset with devs := (List.range 192).map fun d => (d, plainDev), wcc := 50, agenda := [(50, .sidebandReadStatus, .dev 0)] }

theorem witness_events :
    dueEvent.phase = 0 ∧ dueEvent.bootTurn.isNone = true ∧ dueEvent.holdTurn.isNone = true
    ∧ (firstTurn dueEvent.jobs fun e => dueEvent.jobTurn e.1 e.2).isNone = true ∧ dueEvent.requestTurn.isNone = true
    ∧ isLate .sidebandReadStatus = false ∧ dueEvent.keptBack .sidebandReadStatus (.dev 0) = false := by decide +kernel

/-! ## Witnesses: further clauses -/

/-- Device 0 between P and X of a change that moves the line of space 0's root entry; its stations hold nothing. -/
def changing0 (s : State) : State :=
  s.modDev 0 fun v => { v with change := some ⟨⟨me.core, 9⟩, 0x20, 0x100, true, 0⟩, tlb := [], config := { v.config with spbase := 0x100 } }

/-- A walk meets a line that moves where the root entry's line does. -/
theorem walkMoves_root (s : State) (sp : BitVec 16) (va : Nat)
    (h : s.moving 0 ((s.dev 0).config.spbase + 16 * sp.toNat) = true ∧ (s.dev 0).change.any (fun c => c.pending) = true ∧ (s.dev 0).tlb = []) :
    s.walkMoves 0 sp va = true := by
  simp [State.walkMoves, Device.cached, h]

theorem witness_walkMoves :
    (addresses.walkMoves 0 0 0x10108 = false ∧ words.walkMoves 0 0 0x10100 = false ∧ tables.walkMoves 0 1 0x10008 = false)
    ∧ (let s := (withCore addresses fun c => { c with win0 := 0x80C0000000000000 }).modDev 3 fun _ => plainDev
       s.aim (s.memAddr 3 3 0 1) 8 = .ok (.dram 3 true false) ∧ s.walkMoves 3 s.me.space 0x10108 = false)
    ∧ (changing0 addresses).aim ((changing0 addresses).memAddr 3 3 0 1) 8 = .ok (.dram 0 false false)
    ∧ (changing0 addresses).walkMoves 0 (changing0 addresses).me.space 0x10108 = true :=
  ⟨by decide, by decide +kernel, by decide +kernel, walkMoves_root _ _ _ (by decide +kernel)⟩

/-- The buffers of pipe 5 and what lies behind them; the pool of core (1, 0), inside its workspace and outside; that of (2, 0), which
has no power. -/
theorem witness_bufferAddresses :
    (∀ e ∈ [((0x00FD000500001000 : Word), 0), (0x00FD000540001000, 1), (0x00FD000580001000, 2), (0x00FD0005C0001000, 3),
          (0x00FD000500180000, 0)],
      e.1.toNat / 2 ^ 48 = 0xFD ∧ e.1.toNat / 2 ^ 32 % 2 ^ 16 = 5 ∧ e.1.toNat / 2 ^ 30 % 4 = e.2)
    ∧ words.aim 0x00FD000500001000 8 = .ok (.window ⟨0, 5⟩ (some .w) 0x1000) ∧ words.aim 0x00FD000500180000 8 = .error 3
    ∧ (∀ a ∈ [(0x00FF000000101000 : Word).toNat, (0x00FF000000100100 : Word).toNat, (0x00FF000000201000 : Word).toNat],
      a / 2 ^ 48 = 0xFF ∧ a % 2 ^ 48 / 2 ^ 20 < 128 ∧ a % 2 ^ 20 < 2 ^ 18)
    ∧ clusterCore 0 0 0 1 = .thread 0 1 0 ∧ clusterCore 0 0 0 2 = .thread 0 2 0
    ∧ 0x1000 < (words.core (.thread 0 1 0)).bndS.toNat * 512 ∧ (words.core (.thread 0 1 0)).bndW.toNat * 512 ≤ 0x1000
    ∧ ¬(words.core (.thread 0 1 0)).bndW.toNat * 512 ≤ 0x100 ∧ ¬0x1000 < (words.core (.thread 0 2 0)).bndS.toNat * 512 := by decide

/-- A change in progress on device 0; a privileged context whose queue holds a store. -/
theorem witness_enterWalks :
    ((changing0 ranges).dev 0).change ≠ none ∧ (ranges.dev 0).change = none
    ∧ (let s := withMe ranges fun c => { c with priv := true, stores := [entry (.pool me.core 0x1000) [1] false] }
       s.me.stores ≠ [] ∧ s.me.priv = true ∧ (s.reg 2).toNat < deviceEnd) := by decide

/-- The place of an update lies on a core of another space, or on one whose space 0 refuses a guest from outside the column. -/
def outsider : State := (withCore words fun c => c).modDev 0 fun v => { v with config := { v.config with colx0 := 7 } }

theorem witness_spaces :
    words.spaceRefused me (.thread 0 1 0) = false
    ∧ words.inColumn me.core = true ∧ outsider.inColumn me.core = false ∧ outsider.me.space = 0
    ∧ outsider.aim (outsider.reg 4) 8 = .ok (.pool (.thread 0 1 0) 0x1000) ∧ outsider.spaceRefused me (.thread 0 1 0) = true
    ∧ (moves.core (.thread 0 1 0)).space ≠ moves.me.space ∧ moves.aim (moves.reg 3) 8 = .ok (.pool (.thread 0 1 0) 0x1000)
    ∧ outsider.guardHolds always = true
    ∧ outsider.aim (outsider.reg 4) 1 = .ok (.pool (.thread 0 1 0) 0x1000) ∧ outsider.me.home = none := by decide

/-- An earlier update of the context is still on its way to the same core; one whose walk does not wait. -/
theorem witness_updateOrder :
    words.updateBehind (update 0x90000) = false ∧ words.updateWalks (update 0x90000) = false
    ∧ ({ words with agenda := [(1100, .remoteUpdateApply, .update (update 0x00FF000000101000))] } : State).updateBehind
        { update 0x00FF000000101000 with id := 1 } = true
    ∧ words.updateBehind (update 0x00FF000000101000) = false
    ∧ words.updateSub (update 0x00FF000000101000) (.pool (.thread 0 1 0) 0x1000) = false ∧ (words.core (.thread 0 1 0)).normQueue = [] := by
  decide

/-- A failure that a loss caused stands recorded, and an earlier or later update fails by the same loss; a failure without a loss. -/
theorem witness_deferrals :
    (let s := (withMe moves fun c => { c with deferred := some (26, 0x50), deferredBy := some (1, 257) }).modSwitch 4 fun w => { w with up := false, inc := 1 }
     let s := s.modDev 0 fun v => { v with lost := [4] }
     let w := update 0x00E2020000A00100
     s.updateSilent w = false ∧ s.updateBehind w = false ∧ s.updateWalks w = false ∧ s.updateTarget w = .error 26
     ∧ s.lossOf w = some 257 ∧ (s.ctx w.src).deferred = some (26, 0x50) ∧ (s.ctx w.src).deferredBy = some (1, 257) ∧ w.id < 1)
    ∧ (let s := withMe words fun c => { c with deferred := some (26, 0x50) }
       (s.ctx (update 0x90000).src).deferred ≠ none ∧ s.lossOf (update 0x90000) = none) := by decide

/-- Threads that may leave for a bank and for home, and one that may not: a store waits in its queue. -/
theorem witness_mayLeave :
    moves.mayLeave me (.go (.switch 4 5) (moves.me.pc + 4) 0x00E2020000A00100 false) = true
    ∧ onSwitch.mayLeave onSwitch.tf (.home (onSwitch.me.pc + 4) .goOn) = true
    ∧ onSwitch.mayLeave onSwitch.tf (.home onSwitch.me.pc .goOn) = true
    ∧ onSwitch.mayLeave onSwitch.tf (.home onSwitch.me.pc (.trap ⟨5, 0, 8⟩)) = true
    ∧ (withMe moves fun c => { c with stores := [entry (.pool me.core 0x1000) [1] false] }).mayLeave me
        (.go (.switch 4 5) 0x1004 0x00E2020000A00100 false) = false := by decide

/-- A caravan that left bank 5 of switch 4, one of a pair, with its incarnation then. -/
def fromPair (inc : Nat) : Caravan := { travel0 .goOn with origin := some ⟨.switch 4 5, inc, []⟩ }

/-- A caravan whose switch has been lost, before and after its home's device holds the notice; one whose key has been zeroed. -/
theorem witness_lostCaravans :
    (let s := away.modSwitch 4 fun w => { w with up := false }
     s.orphaned (fromPair 0) = some ⟨.switch 4 5, 0, []⟩ ∧ s.originTold (fromPair 0) ⟨.switch 4 5, 0, []⟩ = false
     ∧ (s.modDev 0 fun v => { v with lost := [4] }).originTold (fromPair 0) ⟨.switch 4 5, 0, []⟩ = true)
    ∧ away.orphaned (travel0 .goOn) = none ∧ away.discarded me.core (travel0 .goOn) = false
    ∧ away.discarded (.switch 4 5) (travel0 .goOn) = false
    ∧ (let c := { travel0 .goOn with via := [{ switch := 4, inc := 0, pair := false }] }
       let s := (away.modSwitch 4 fun w => { w with up := true, inc := 0 }).modPort 0 4 fun v => { v with zeroed := [0] }
       s.orphaned c = none ∧ s.strayed c = false ∧ s.discarded (.edge 0 0) c = true) := by decide

/-- w3 names a descriptor in device memory, whose line's walk moves. -/
def spawning : State := changing0 (withMe (thread [(2, 0x10100)]) fun c => { c with tjob := some 0 })

/-- A descriptor pinned to core (1, 0), with no counter; one whose walk moves; a guest that may go home. -/
theorem witness_spawnElsewhere :
    (let s := { tasks 0 with pool := (tasks 0).pool.setNum 0x1030 8 (2 ^ 63 + 2 ^ 5) }
     s.me.home = none ∧ s.me.stores = [] ∧ (s.ctx (s.homeOf s.tf)).updates = [] ∧ s.descMoves me.core 0 false (s.reg 2) = false
     ∧ (s.spawnCheck (s.reg 2)).toOption.isSome = true)
    ∧ spawning.descMoves spawning.tf.core spawning.me.space spawning.me.priv (spawning.reg 2) = true
    ∧ spawning.guardHolds always = true ∧ spawning.me.home = none ∧ spawning.me.stores = []
    ∧ (spawning.ctx (spawning.homeOf spawning.tf)).updates = []
    ∧ onSwitch.mayLeave onSwitch.tf (.home onSwitch.me.pc .goOn) = true ∧ onSwitch.me.home = some me := by decide +kernel

/-- Probes that find an entry whose descriptor lies in device memory, and in the victim's pool; that find nothing, the port busy, the
job ended, the victim in no steal set; a probe that is served and ends. -/
theorem witness_probeEnds :
    (let s := { thieves true [0x11040] with wcc := 1100 }
     let s0 := s.endProbe (.thread 0 1 0) me.core true
     ((s.core (.thread 0 1 0)).steal.map fun x => x.probing) = some (some 1000) ∧ s.stealJob (.thread 0 1 0) = some (0, aJob)
     ∧ s.inSet 0 me.core = true ∧ s.portBusy me.core = false ∧ s0.stealContext (.thread 0 1 0) = some 0
     ∧ (s0.takeTop me.core).map (fun x => x.1) = some 0x11040 ∧ s.poolOffset me.core 0x11040 = none)
    ∧ (let s := { thieves true [0x00FE000000001000] with wcc := 1100 }
       let s0 := s.endProbe (.thread 0 1 0) me.core true
       s.inSet 0 me.core = true ∧ s.portBusy me.core = false ∧ s0.stealContext (.thread 0 1 0) = some 0
       ∧ (s0.takeTop me.core).map (fun x => x.1) = some 0x00FE000000001000 ∧ s.poolOffset me.core 0x00FE000000001000 = some 0x1000)
    ∧ (({ thieves true [] with wcc := 1100 } : State).endProbe (.thread 0 1 0) me.core true).takeTop me.core = none
    ∧ (thieves true [0x11040]).portBusy me.core = true
    ∧ (let s : State := { thieves true [] with tjobs := [(0, { aJob with state := .suspended })] }
       s.stealJob (.thread 0 1 0) = some (0, { aJob with state := .suspended }))
    ∧ (withCore (thieves true []) fun c => { c with steal := none }).inSet 0 me.core = false := by decide +kernel

/-- Descriptors that break a check; one whose line moves. -/
theorem witness_badStarts :
    (0x11002 : Word).toNat % 4 ≠ 0 ∧ deviceEnd ≤ (0x00FE000000001000 : Word).toNat ∧ descWords[7]? = some 0
    ∧ (tasks 0).descMoves me.core 0 false 0x00FE000000001000 = false
    ∧ (changing0 (thread [])).descMoves me.core 0 false 0x10100 = true := by decide +kernel

/-- Switch 4 and its allocation, of an incarnation. -/
def tierInc (inc : Nat) : State :=
  { tier.modSwitch 4 (fun w => { w with inc := inc })
    with allocs := [{ switch := 4, mir := false, off := 0, size := granule, space := 0, inc := inc, freed := false }] }

theorem witness_tierInformation :
    tier.classify me (tier.reg 5) = .tier 4 1 8
    ∧ tier.allocs.all (fun a => tier.allocLive a && a.covers 4 8 && a.inc == 1) = true
    ∧ (tierInc 2).allocs.all (fun a => (tierInc 2).allocLive a && a.covers 4 8 && a.inc != 1) = true
    ∧ (∀ j inc off, tier.classify me (tier.reg 8) ≠ .tier j inc off)
    ∧ ∀ i : Instr, (withMe tier fun c => { c with cur := some i }).me.cur = some i :=
  ⟨by decide, by decide, by decide, fun j inc off => by
    rw [show tier.classify me (tier.reg 8) = .dram 0 false false by decide]; simp, fun _ => rfl⟩

/-- Requests that find no switch, no quota and no room, and that a pair serves. -/
theorem witness_reasons :
    (let s := { tier with switches := (List.range 24).map fun k => (k, { Switch.reset with up := false }) }
     s.eligible 0 false = [] ∧ (s.allocate 0 0 false 1 0).2.2 = 4)
    ∧ tier.eligible 0 false ≠ [] ∧ (tier.allocate 0 0 false (5 * granule) 0).2.2 = 1
    ∧ (let s := { tier with
          allocs := (List.range 24).map fun k => { switch := k, mir := false, off := 0, size := 2 ^ 38, space := 9, inc := 1, freed := false } }
       (s.allocate 0 0 false 1 0).2.2 = 2 ∧ s.allocs.all (fun a => (a.off + a.size) % 2 ^ 21 == 0) = true)
    ∧ (tier.allocate 0 0 true 1 0).2.2 = 0 := by decide +kernel

/-- Commands of DOTM with a stride off 128, no rows, and a vector or results beyond the pool. -/
theorem witness_dotmRefused :
    (let m := dotmCommand ((dotting 0x10000 0).dotmWords (.edge 0 0) 0x1000)
     m.row.toNat < deviceEnd ∧ m.n = 0)
    ∧ deviceEnd ≤ (dotmCommand ((dotting 0x00FE000000000000 1).dotmWords (.edge 0 0) 0x1000)).row.toNat
    ∧ (let s := dotting 0x10000 1
       let s := { s with pool := s.pool.setNum ((CoreRef.edge 0 0).poolBase + 0x1010) 8 0x40000 }
       let m := dotmCommand (s.dotmWords (.edge 0 0) 0x1000)
       m.row.toNat < deviceEnd ∧ m.stride % 128 = 0 ∧ 1 ≤ m.n ∧ m.n ≤ 65536 ∧ 2 ^ 18 < m.vec + 128)
    ∧ dotmOffset 0x0100000000001000 = none ∧ 2 ^ 56 ≤ (0x0100000000001000 : Word).toNat
    ∧ (dotted 0x10000 1).walkMoves 0 0 0x10000 = false := by decide +kernel

theorem witness_dotmMoves : (changing0 (dotted 0x10000 1)).walkMoves 0 (changing0 (dotted 0x10000 1)).me.space 0x10000 = true :=
  walkMoves_root _ _ _ (by decide +kernel)

/-- A user of the package's registers. -/
theorem witness_userChanges : pair.guardHolds always = true ∧ pair.me.priv = false := by decide

/-- Root entries that a walk refuses and accepts, and of each level an entry that fails, a table and a leaf. -/
theorem witness_tableWalks :
    (toWord (tables.dramNum 0 (16 * 2) 8)).getLsbD 63 = false
    ∧ (let w0 := toWord (tables.dramNum 0 16 8)
       let w1 := toWord (tables.dramNum 0 24 8)
       (tables.dev 0).config.spbase = 0 ∧ ¬(w0.getLsbD 63 = false ∨ wbits w0 39 24 ≠ 0 ∨ wbits w0 0 16 ≠ 0 ∨ wbits w1 6 58 ≠ 0))
    ∧ (let e := toWord (tables.dramNum 0 (0x10000 + 8 * (0x10008 / 2 ^ 43 % 2 ^ 13)) 8)
       ¬(e.getLsbD 63 = false ∨ wbits e 39 20 ≠ 0 ∨ wbits e 0 8 ≠ 0) ∧ e.getLsbD 62 = false ∧ wbits e 8 31 * 256 % 2 ^ 16 = 0)
    ∧ (let e := toWord (tables.dramNum 0 (0x32100 + 8 * (0x10008 / 2 ^ 16 % 2 ^ 5)) 8)
       ¬(e.getLsbD 63 = false ∨ wbits e 39 20 ≠ 0 ∨ wbits e 0 8 ≠ 0) ∧ e.getLsbD 62 = true ∧ wbits e 8 31 * 256 % 2 ^ 16 = 0)
    ∧ (toWord (tables.dramNum 0 (0x10000 + 8 * (2 ^ 43 / 2 ^ 43 % 2 ^ 13)) 8)).getLsbD 63 = false := by decide +kernel

/-- A job with one milestone of stamp 480 left, on its turn; a copy to memory that completes at 476 is in flight, or nothing. -/
def milestone (copies : Bool) : State :=
  let s := oneJob fun v => { v with milestones := [(480, 4, 7)] }
  let op := { s.newOp 0 job0 .cpah [] 2 with issue := 474, writes := [(0, 0x10000, [1])] }
  { (if copies then s.modPipe pipe0 fun p => { p with ops := [(9, op)] } else s) with ev := .jobWord 0 0 }

theorem witness_milestones :
    (theJob (milestone false)).milestones = [(480, 4, 7)] ∧ (theJob (milestone false)).refs = [pipe0]
    ∧ ((milestone false).pipe pipe0).ops = []
    ∧ (((milestone true).pipe pipe0).ops.map fun e => (e.2.job, e.2.writesLeft, e.2.issue + e.2.interval + e.2.stretch)) = [(0, true, 476)]
    ∧ (milestone false).storeMoves 0 (theJob (milestone false)).space 1 0x20008 8 = false
    ∧ (((milestone false).modJob 0 fun u => { u with milestones := [] }).virtStore 0 (theJob (milestone false)).space 1 0x20008 8 7).isSome
      = true := by decide +kernel

/-- Five nested loops are asked for. -/
theorem witness_fifthLoop :
    (let s := (stream .seq job0 [2]).modSt fun t => { t with loops := List.replicate 4 ⟨1, 0, none⟩ }
     s.st.stack = [2] ∧ 4 ≤ s.st.loops.length) := by decide

/-- OASIS on pipe 0 for record 0: too late, first, and of a window that pipe 1 armed, alike or not; one of its own meets it. -/
theorem witness_arming :
    let armed (who close : Nat) : Job := { job0 with windows := [(0, { open0 close with openAt := 2448, armedBy := [who] })] }
    (stream .seq job0 [0, 0xFFFFFFFFFFFFF800]).MayLaunch 0 job0 .oasis 2
    ∧ (400 : Int) + (toWord 0x800 + 0xFFFFFFFFFFFFF800).toNat + (stream .seq job0 [0, 0xFFFFFFFFFFFFF800]).st.bias = 400
    ∧ (stream .seq (armed 1 2704) [0, 0]).MayLaunch 0 (armed 1 2704) .oasis 2
    ∧ (400 : Int) + (toWord 0x800 + 0).toNat + (stream .seq job0 [0, 0]).st.bias = 2448 ∧ 2448 + 0x100 = 2704
    ∧ ((armed 1 2704).windows.get? 0).map (fun w => (w.openAt, w.closeAt)) = some (2448, 2704)
    ∧ (∀ e ∈ (armed 1 2704).windows, 0 ∉ e.2.armedBy)
    ∧ ((armed 1 2705).windows.get? 0).map (fun w => (w.openAt, w.closeAt)) = some (2448, 2705)
    ∧ (∀ e ∈ (armed 0 2704).windows, 0 ∈ e.2.armedBy ∧ 500 < e.2.closeAt ∧ rangesOverlap 2448 0x100 e.2.openAt (e.2.closeAt - e.2.openAt) = true)
    := by
  refine ⟨⟨onJob0 _ _, rfl, ?_, ?_, ?_⟩, ?_, ⟨?_, rfl, ?_, ?_, ?_⟩, ?_⟩
    <;> first | decide | exact ⟨by simp [stream, State.pipe, PipeRef.code, Table.get?], by simp [stream, Table.get?]⟩

/-- Ranges that leave device memory and that begin behind it; ranges that leave the offsets of a switch. -/
theorem witness_spaceEnds :
    (deviceEnd - 64 < deviceEnd ∧ deviceEnd < deviceEnd - 64 + 128 ∧ deviceEnd ≤ (0x00E2020000A00100 : Word).toNat)
    ∧ (let z := (0x00E2023FFFFFFFC0 : Word).toNat
       0xE0 ≤ z / 2 ^ 48 ∧ z / 2 ^ 48 < 0xF0 ∧ z / 2 ^ 47 % 32 ≤ 23 ∧ z / 2 ^ 38 % 8 = 0 ∧ 2 ^ 38 < z % 2 ^ 38 + 128) := by decide

/-- The line of a store moves. -/
theorem linesMove_root (s : State) (sp : BitVec 16) (use : Use) (cls va n : Nat) (hn : n ≠ 0)
    (h : s.moving 0 ((s.dev 0).config.spbase + 16 * sp.toNat) = true ∧ (s.dev 0).change.any (fun c => c.pending) = true ∧ (s.dev 0).tlb = []) :
    s.linesMove 0 sp use cls va n = true := by
  rw [State.linesMove, if_neg hn, List.any_eq_true]
  exact ⟨0, by simp, by simp [walkMoves_root s sp _ h]⟩

theorem witness_milestoneMoves :
    (changing0 (milestone false)).storeMoves 0 0 1 0x20008 8 = true ∧ (theJob (milestone false)).space = 0 :=
  ⟨linesMove_root _ _ _ _ _ _ (by decide) (by decide +kernel), by decide⟩

/-- A suffix that names the format of the weights, and one that names another. -/
theorem witness_suffixes : formatOk fmtBf16.word false = true ∧ (4 : BitVec 5).toNat ≠ fmtW fmtBf16.word ∧ (4 : BitVec 5) ≠ 0 := by decide

/-- Sources of a conversion and of the vector functions: numbers, infinities, NaNs. -/
theorem witness_elements :
    f32.isNan 0x7FC00000 = true ∧ f32.isNan 0x3F800000 = false ∧ 0x7FC00000 < 2 ^ (f32.signBit + 1)
    ∧ f32.value 0x7F800000 = .inf false ∧ f32.value 0xFF800000 = .inf true ∧ f16.value 0x7C00 = .inf false
    ∧ bf16.isNan 0x7FC0 = true ∧ f16.isNan 0x7E00 = true
    ∧ (∃ n m e, f32.value 0x3F800000 = .fin n m e) ∧ (∃ n m e, f16.value 0x3C00 = .fin n m e) ∧ (∃ n m e, bf16.value 0x3F80 = .fin n m e)
    ∧ ([1, 2, 3, 4] : List Nat).length = 2 ^ (1 + 1) ∧ targetInt 13 0 = true ∧ targetInt 1 0 = false :=
  ⟨by decide, by decide, by decide, by decide, by decide, by decide, by decide, by decide, ⟨_, _, _, rfl⟩, ⟨_, _, _, rfl⟩, ⟨_, _, _, rfl⟩,
    by decide, by decide, by decide⟩

/-- Operations of every element function with a slot captured. -/
theorem witness_vectorOps (w : Instr) :
    ((stream .vxe job0 []).newOp 0 job0 w [] 2).word = w
    ∧ ({ (stream .vxe job0 []).newOp 0 job0 w [] 2 with slots := [(0, Slot.zero)] } : Op).slots.get? 0 = some Slot.zero := ⟨rfl, rfl⟩

/-- Slots of each case of Table 5; a scale above and below an anchor. -/
theorem witness_slots :
    (let nan (k : Slot) : Bool := k.n || (k.pi && k.mi)
     nan { Slot.zero with n := true } = true ∧ nan { Slot.zero with pi := true, mi := true } = true
     ∧ nan { Slot.zero with pi := true } = false ∧ nan { Slot.zero with mi := true } = false ∧ nan { Slot.zero with v := true } = false
     ∧ nan Slot.zero = false ∧ Slot.zero.v = false)
    ∧ 0 ≤ (64 : BitVec 10).toInt - 64 - 0 ∧ (64 : BitVec 10).toInt - 64 - 1 < 0 := by decide

/-- A group of which a selection takes two: a NaN, and equal values. -/
theorem witness_selections :
    selectTop f32 2 [0x3F800000, 0x7FC00000, 0x40000000, 0x40000000] = ([(2, 0x40000000), (3, 0x40000000)], true)
    ∧ ([[0x3F800000]] : List (List Nat))[0]? = some [0x3F800000] ∧ (selectTop f32 2 [0x3F800000]).1[1]? = some (0xFFFFFFFF, f32.nan)
    ∧ f32.isNan 0x40000000 = false ∧ (1, 0x7FC00000) ∉ ([(2, 0x40000000), (3, 0x40000000)] : List (Nat × Nat)) := by decide +kernel

/-- Products beyond an anchor of 3, and infinities of both signs. -/
theorem witness_products : 3 + 16 ≤ floorLog 1 1 40 ∧ (Slot.zero.count.toNat ≤ 32768) := by decide

/-- A landing of a load that no lost switch silences; one of a peer fetch. -/
theorem witness_notSilent :
    (((loaded 64 2000).pipe pipe0).ops.all fun e => !(e.2.ofTier && (loaded 64 2000).tierSilent 0 0x10000)) = true
    ∧ (((inFlight (.pfa 3) id).pipe pipe0).ops.map fun e => e.2.word) = [.pfa 3]
    ∧ (((inFlight (.tfw 3) id).pipe pipe0).ops.all fun e => !(e.2.ofTier && (inFlight (.tfw 3) id).tierSilent 0 0x10000)) = true := by decide

/-- Recorded faults before and behind one of SEQ of pipe 0: of a lower and a higher engine, of a higher pipe. -/
theorem witness_faultOrder :
    (let mine : Nat × Nat := (job0.rel 0, Engine.seq.idx)
     let first (f : Nat × Nat) : Prop := mine.1 < f.1 ∨ (mine.1 = f.1 ∧ mine.2 < f.2)
     first (1, 0) ∧ first (0, 5) ∧ ¬first (0, 0)) ∧ (7 : Nat) < 8 := by decide

/-- Posts of every fate: an address in no pipe's window, a slot whose port has taken a post, in time, late with policy default, with
policy stall behind the close, before the pass has closed it. -/
theorem witness_postFates :
    addresses.classify me (addresses.reg 3) = .dram 0 false false ∧ (addresses.reg 3).toNat % 8 = 0
    ∧ (arrived 600 1 1).postTarget (postReq 1 1) = some ((0, openJob 600), (open0 600, ⟨1, 0, true⟩))
    ∧ ({ posting 1 with ev := .post (postReq 1 1) } : State).postTarget (postReq 1 1) = none
    ∧ (openJob 600).portTook (postReq 1 1) 1000 = false
    ∧ ({ openJob 600 with postAt := [(1, 1000)] } : Job).portTook (postReq 1 1) 1000 = true
    ∧ (openJob 600).state = .running ∧ ((arrived 600 1 1).part (openJob 600).part).pcc = 500
    ∧ (arrived 500 0 7).slotOf (openJob 500) (postReq 0 7) = some (open0 500, ⟨7, 3, false⟩)
    ∧ ({ open0 500 with closed := true } : Window).value 1 = none
    ∧ ((open0 500).posted[1]?).join = none ∧ (((open0 500).posted[0]?).join).isSome = true := by decide

/-- A close whose last stall slot a post fixes, and its hold. -/
theorem witness_lateStall :
    let w : Window := { open0 500 with closed := true, fixed := [some 5, none] }
    w.closed = true ∧ (∀ x ∈ w.fixed.set 1 (some 1), x ≠ none)
    ∧ (⟨0, 476, 524, none, .close 0 0⟩ : Hold).release = none ∧ (postReq 1 1).slot < w.posted.length
    ∧ ((arrived 500 1 1).jobs.get? 0) = some (openJob 500) := by decide

/-- A hold of a job that runs and of one that is suspended. -/
theorem witness_jobHolds :
    let s : State := { holding none with jobs := [(9, job0)] }
    s.holdsNow ⟨0, 0⟩ = true ∧ ({ s with jobs := [(9, { job0 with state := .suspended })] } : State).holdsNow ⟨0, 0⟩ = false
    ∧ (s.part ⟨0, 0⟩).group = none := by decide

/-- A mapped store of a context that waits, its bank the job's own; one that finds its bank in another job's hands; a load's reply. -/
theorem witness_mappedStores :
    (let s := (accessing 600 (some 7)).modCtx me fun c => { c with mode := .waiting (.pipe none), cur := some (.st always 2 3 3 0 0) }
     let s := s.setOwner ⟨pipe0, .a, bankOf .a 0x2000⟩ ⟨some 0, none⟩
     s.admits (access (some 7)) = some (0, openJob 600) ∧ (s.ctx me).mode = .waiting (.pipe none)
     ∧ (s.ctx me).cur.bind memForm = some ⟨2, 3, 3, 0, 0, 0⟩
     ∧ (s.claimBank 0 (openJob 600) none ⟨pipe0, .a, bankOf .a 0x2000⟩).canBuffer (access (some 7)) = true)
    ∧ (let s := (accessing 600 (some 7)).setOwner ⟨pipe0, .a, bankOf .a 0x2000⟩ ⟨some 7, none⟩
       (s.claimBank 0 (openJob 600) none ⟨pipe0, .a, bankOf .a 0x2000⟩).canBuffer (access (some 7)) = false
       ∧ (s.pipe pipe0).waiters = [])
    ∧ (let s := { (accessor 600).modCtx me (fun c => { c with cur := some (.ld always 1 3 3 0 0 0) }) with ev := .access (access (some 7)) }
       (s.ctx me).mode = .waiting (.pipe none) ∧ (s.ctx me).cur.bind memForm = some ⟨1, 3, 3, 0, 0, 0⟩) := by decide

/-- A lowering write of SLOTMAP waits at the front's device, or another one, or none. -/
theorem witness_frontWaits :
    ((atFront (request 0x10000)).modDev 0 fun v => { v with slotWait := some ⟨me, 0x30, 0xDDDDDDDD, true, 0⟩ }).loweringWaits 0 = true
    ∧ ((atFront (request 0x10000)).modDev 0 fun v => { v with slotWait := some ⟨me, 0x30, 0xDDDDDDDD, false, 0⟩ }).loweringWaits 0 = false
    ∧ (atFront (request 0x10000)).loweringWaits 0 = false ∧ displacing.loweringWaits 0 = false := by decide +kernel

/-- A named pipe holds a suspended job. -/
theorem witness_takenPipes :
    (let s := (atFront (request 0x10000)).modPipe pipe0 fun p => { p with suspended := some 3 }
     s.pipeTaken (request 0x10000) = true ∧ ((requestPipes (request 0x10000)).any fun x => !(s.part ⟨0, 0⟩).clusters.contains (x.p / 24)) = false
     ∧ (s.part ⟨0, 0⟩).pcc + 64 ≤ 564) := by decide +kernel

/-- A running victim with a fault; a request that waits for a victim; a parked job whose streams are all saved. -/
theorem witness_displaced :
    (theJob (oneJob fun v => { v with fault := some aFault })).fault ≠ none ∧ (theJob (oneJob id)).fault = none
    ∧ waitingRequest.awaited (request 0x10000) = [0] ∧ (waitingRequest.jobs.get? 0).isSome = true
    ∧ ((parked.pipe pipe0).saved.map fun x => x.streams.length) = some 5 := by decide

/-- Claims of every kind: of one's own bank, of an imaged one, of one about to be written out, of another job's, of one free, behind a
claim, of another space's. -/
theorem witness_claimKinds :
    (owned ⟨some 0, none⟩).claimKind 0 job0 bank3 = .own
    ∧ (owned ⟨none, some 9⟩).claimKind 0 { job0 with images := [(0, bankCode .w 3)] } bank3 = .fill
    ∧ ((owned ⟨some 7, none⟩).modPipe pipe0 fun p => { p with claims := [⟨bank3, .writeOut, 7, some 0, 1000, 0⟩] }).claimKind 0 job0 bank3 = .fill
    ∧ (owned ⟨some 7, none⟩).claimKind 0 job0 bank3 = .writeOut ∧ (owned ⟨none, some job0.space⟩).claimKind 0 job0 bank3 = .free
    ∧ ((owned ⟨none, some job0.space⟩).modPipe pipe0 fun p => { p with claims := [⟨bank3, .clear, 7, none, 1000, 0⟩] }).claimKind 0 job0 bank3
        = .behind
    ∧ (owned ⟨none, some 9⟩).claimKind 0 job0 bank3 = .clear := by decide

/-- A pipe whose first claim is due, of each kind; one that has none. -/
theorem witness_claimsDue :
    (∀ k ∈ [ClaimKind.clear, .writeOut, .fill], ((owned ⟨some 0, none⟩).modPipe pipe0 fun p =>
      { p with claims := [⟨bank3, k, 0, some 7, 100, 0⟩] }).claimDue pipe0 = some ⟨bank3, k, 0, some 7, 100, 0⟩)
    ∧ (owned ⟨some 0, none⟩).claimDue pipe0 = none
    ∧ (⟨0, 500, 548, none, .bank bank3⟩ : Hold).cause = .bank bank3 := by decide +kernel

/-- Partition 0, aligned as group 7 with partition 1 of device 1, has learned of a hold of that one, which is lost. -/
theorem witness_lostHolds :
    let h : Hold := ⟨9, 10, 60, none, .remote ⟨1, 1⟩⟩
    let s : State := { (parts2 .none).modPart ⟨0, 0⟩ (fun p => { p with holds := [h], group := some 7 }) with groups := [(7, [⟨0, 0⟩, ⟨1, 1⟩])] }
    (⟨0, 0⟩ : PartRef) ∈ (s.groups.get? 7).getD [] ∧ h ∈ (s.part ⟨0, 0⟩).holds ∧ h.release = none ∧ h.cause = .remote ⟨1, 1⟩ := by decide

/-- A change on device 0 that moves the line of its queue table. -/
def fetchMoving : State :=
  (ringWith (packet64 signalWord 0xFA2424AE 0x20040 9)).modDev 0 fun v =>
    { v with change := some ⟨⟨me.core, 9⟩, 0x20, 0x40000, true, 0⟩ }

theorem witness_fetchMoves :
    fetchMoving.fetchMoves 0 0 = true ∧ (fetchMoving.queue 0 0).fetching = true
    ∧ (ringWith (packet64 signalWord 0xFA2424AE 0x20040 9)).fetchMoves 0 0 = false := by decide +kernel

/-- A signal of a graph whose node's status store is held, and of one that has none left. -/
theorem witness_heldStatus :
    (let s : State := { graph5 (nodeOf 4 0x20040 9 0) 1 with
        graphs := (graph5 (nodeOf 4 0x20040 9 0) 1).graphs.map fun e => (e.1, { e.2 with unstored := [0] }) }
     s.statusHeld (.node 5 0) = true ∧ s.frontOp 4 (.node 5 0) = some (0, 0, 1, nodeOf 4 0x20040 9 0))
    ∧ (graph5 (nodeOf 4 0x20040 9 0) 1).statusHeld (.node 5 0) = false := by decide +kernel

/-- A second wave that agrees with the first one, and a first one. -/
theorem witness_agreeingWaves :
    (∀ v ∈ [job7 .running (1, 0), job7 .running (0, 0)], (launched v (.tjob 7)).waveKind 7 v = 1 ∧ v.state = .running)
    ∧ (job7 .running (1, 0)).wave = (1, (job7 .running (1, 0)).sent)
    ∧ (job7 .running (0, 0)).wave ≠ (1, (job7 .running (0, 0)).sent)
    ∧ (withEntry (job7 .running (0, 0))).waveKind 7 (job7 .running (0, 0)) = 0 := by decide +kernel

/-- Suspensions of a queue that has been fetched and of one that has not, and of one that does not run. -/
theorem witness_suspensions :
    (let s := (ringWith []).modQueue 0 0 fun v => { v with en := false, state := 3 }
     (s.queue 0 0).en = false ∧ ((s.loadQueue 0 0).queue 0 0).state = 0)
    ∧ ((queueIn 0 0 .none).queue 0 0).en = true ∧ ((queueIn 1 3 .none).queue 0 0).state ≠ 0 := by decide +kernel

/-- Stores of the host to BAR0: a wake write, a command, and words that are no register of its. -/
theorem witness_hostStores :
    let s := bridging (.hostStore 0 0x10 1)
    s.ev = .hostStore 0 0x10 1 ∧ (s.dev 0).config.bridge = true ∧ s.groupDev 0 (0x10 / 2 ^ 23) = some 0
    ∧ 0x10 % 2 ^ 23 % 8 = 0 ∧ 0x10 % 2 ^ 23 < 0x200 ∧ 0x400 % 8 = 0 ∧ 0x5F8 % 8 = 0 ∧ 0x5F8 < 0x600 ∧ 0x11 % 8 ≠ 0 := by decide

/-- A pipe that holds a suspended job, and one on which a job runs; attestations of 32 bytes and of other lengths. -/
theorem witness_records :
    ((parked.pipe pipe0).job, (parked.pipe pipe0).suspended, (parked.pipe pipe0).saved.isSome) = (none, some 0, true)
    ∧ ((oneJob id).pipe pipe0).job = some 0 ∧ ((parked.pipeRecord pipe0)[1]?).isSome = true
    ∧ (List.replicate 32 (0 : Byte)).length = 32 ∧ ([] : List Byte).length ≠ 32 ∧ ((thread []).dev 0).leaf < 2 ^ 20 := by decide

/-- A message for the attestation role of core (0, 2), with an entry of the firewall that admits it, and without. -/
def attesting (entry : Word) : State :=
  (thread []).modDev 0 fun v =>
    { v with fwValid := true, firewall := [(0, (entry, 0x7EF))], config := { v.config with colx0 := 0, colx1 := 0xFF, roles := 0x400 } }

/-- A message to class 1 of core (0, 2). -/
def nonceMail : Message := { mail with dest := .thread 0 0 2, words := [1, 2, 3, 4] }

theorem witness_attestation :
    (attesting 0x8000000002100000).attests nonceMail.dest = true ∧ (attesting 0x8000000002100000).firewall 0 nonceMail = true
    ∧ (attesting 0).firewall 0 nonceMail = false ∧ nonceMail.dest.dev = some 0 ∧ (thread []).attests nonceMail.dest = false := by decide

/-- Packets whose tag fails, on a port that is down, behind one that is sent again, and sent again themselves. -/
theorem witness_resends :
    (let p := { aPacket with w0 := aPacket.w0 + 2 ^ 18, tagOk := false }
     wbits p.w0 18 1 = 1 ∧ p.tagOk = false ∧ p.resent = false ∧ p.kept = true)
    ∧ aPacket.resent = false ∧ (ported keyed .none).behindResent 0 aPacket = false
    ∧ ((ported { keyed with up := false } .none).port 0 3).up = false
    ∧ (let s : State := { ported keyed .none with
          agenda := [(1001, .fabricPacketReceive, .packet 0 3 { aPacket with w1 := aPacket.w1 - 2 ^ 32, resent := true })] }
       s.behindResent 0 aPacket = true)
    ∧ (let p := { aPacket with resent := true }
       (ported keyed .none).path p.sender 1 0 = some 0 ∧ ((ported keyed .none).port 0 0).up = true
       ∧ ((ported keyed .none).port 0 0).before p = false ∧ (ported keyed .none).behindResent 0 p = false
       ∧ ((thread []).modDev 1 fun v => { v with paths := [(0, [none, none, none, none])] }).path p.sender 1 0 = none)
    ∧ (((ported keyed .none).port 0 3).keys.get? 2).isSome = true ∧ ((ported keyed .none).port 0 3).keys.get? 5 = none
    ∧ (((ported keyed .none).port 0 3).keys.get? 2).map (fun e => e.spaces) = some [1] := by decide +kernel

/-! ## Ill-formed terms and words that stand for nothing -/

/-- R27: reserved sub-field codes of the thread instructions. -/
theorem test_illFormedThread :
    (Instr.cmp always 1 2 3 0 10).wf = false ∧ (Instr.cmpi always 1 2 10 0).wf = false ∧ (Instr.fcmp always 1 2 3 0 5).wf = false
    ∧ (Instr.cvt always 1 2 0 4 4).wf = false ∧ (Instr.cvt always 1 2 1 4 5).wf = false ∧ (Instr.lnadd always 1 2 3 11).wf = false
    ∧ (Instr.lnand always 1 2 3 8).wf = false ∧ (Instr.lncpy always 1 2 11).wf = false ∧ (Instr.br always 3 0).wf = false
    ∧ (Instr.ld always 1 2 3 1 0 0).wf = false ∧ (Instr.ldAcq always 1 2 3 1 0).wf = false ∧ (Instr.faa always 1 2 3 7 0 0).wf = false
    ∧ (Instr.faa always 1 2 3 1 0 0).wf = false ∧ (Instr.cas always 1 2 3 0 1 0 0).wf = false ∧ (Instr.redc always 1 2 7 1 0).wf = false
    ∧ (Instr.spawnu always 1 2 7).wf = false ∧ (Instr.send always 1 12 4).wf = false ∧ (Instr.mcast always 1 12 4).wf = false
    ∧ (Instr.job always 12 0).wf = false ∧ (Instr.jobRel always 12 0).wf = false ∧ (Instr.salloc always 3 1 3).wf = false
    ∧ (Instr.sallocMir always 3 1 3).wf = false ∧ (Instr.dotm always 1 2 3).wf = false ∧ (Instr.sysw always 1 0x20).wf = false
    ∧ (Instr.syswHmask always 1 7).wf = false := by decide

/-- R29, R30: reserved modifiers and suffixes of the stream words. -/
theorem test_illFormedStream :
    (Instr.shls 3 0).wf = false ∧ (Instr.setf 5).wf = false ∧ (Instr.take 5).wf = false ∧ (Instr.await 0).wf = false
    ∧ (Instr.tfw 0).wf = false ∧ (Instr.tfa 0).wf = false ∧ (Instr.mma 21 0 0 0).wf = false ∧ (Instr.mmaz 21 0 0 0).wf = false
    ∧ (Instr.dwa 21).wf = false ∧ (Instr.vadd 4).wf = false ∧ (Instr.vexp 4).wf = false ∧ (Instr.vsel 4).wf = false
    ∧ (Instr.vmov 16).wf = false ∧ (Instr.vcmp 1 7).wf = false ∧ (Instr.vcmpu 4 0).wf = false ∧ (Instr.vred 1 4).wf = false
    ∧ (Instr.vcvt 7 0).wf = false ∧ (Instr.vcvt 13 3).wf = false ∧ (Instr.vres 4 0).wf = false ∧ (Instr.vres 1 1).wf = false
    ∧ (Instr.cprs 15 0).wf = false ∧ (Instr.cprh 15 0).wf = false ∧ (Instr.vrq 12 0).wf = false ∧ (Instr.topr 0).wf = false
    ∧ (Instr.topc 4).wf = false := by decide

/-- R24, R26: an unassigned major, an unassigned func10, a nonzero unused field, a second word that takes no prefix, a prefix with a
nonzero field, a truncated pair. -/
theorem test_rejectedWords :
    decodeThread 0b000101_0_000_0000_0000_0000_0000000000 = none ∧ decodeThread 0b000001_0_000_0001_0010_0011_0000001101 = none
    ∧ decodeThread 0b000001_0_000_0001_0010_0001_0000001011 = none
    ∧ decodeCode (leBytes 4 0xFC000001 ++ leBytes 4 0x04000000) = .error .badPair
    ∧ decodeCode (leBytes 4 0xFC040001 ++ leBytes 4 0x34040001) = .error .badPair
    ∧ decodeCode (leBytes 4 0xFC000001) = .error .truncated ∧ decodeCode [0, 0, 0] = .error .truncated
    ∧ decodeStream .lde 0xD800 = none ∧ decodeStream .seq 0xC001 = none ∧ decodeStream .vxe 0xE200 = none := by decide +kernel

/-! ## Words that the spec writes out -/

/-- The examples of R28, R46, R52, R53, R67, R75, R84, R89, R104 and R110. -/
theorem test_threadWordsOfTheSpec :
    decodeCode (leBytes 4 0xFC0048D1 ++ leBytes 4 0x34041678) = .ok (.moviLong always 1 0x12345678, 8)
    ∧ decodeThread 0x20041000 = some (.addi always 1 0 0x1000)
    ∧ decodeCode (leBytes 4 0xFC0003F8 ++ leBytes 4 0x38000000) = .ok (.inshiLong always 0 0xFE0000, 8)
    ∧ decodeThread 0x54159D05 = some (.fmaF32 always 5 6 7 1) ∧ decodeThread 0x5808C150 = some (.cvt always 2 3 1 5 0)
    ∧ decodeThread 0x780C0032 = some (.rdcycPcc always 3 2) ∧ decodeThread 0x78018028 = some (.waitcWcc always 6)
    ∧ decodeThread 0x8C197009 = some (.stRel always 6 5 3 9) ∧ decodeThread 0xA0048C87 = some (.faa always 1 2 3 4 1 1)
    ∧ decodeThread 0xA41158BB = some (.cas always 4 5 6 5 1 2 1) ∧ decodeThread 0xB8008CC0 = some (.spawnu always 2 3 3)
    ∧ decodeThread 0xD810000A = some (.jobRel always 4 2) ∧ decodeThread 0xF4080003 = some (.sysr always 2 3) := by decide +kernel

/-- The examples of R147, R158, R170 to R172 and R204. -/
theorem test_streamWordsOfTheSpec :
    decodeStream .cpe 0xD218 = some (.cprs 3 0) ∧ decodeStream .mxe 0xD018 = some (.mma 3 0 0 0)
    ∧ decodeStream .vxe 0xDB19 = some (.vcmp 3 1) ∧ decodeStream .vxe 0xDC09 = some (.vred 1 1)
    ∧ decodeStream .vxe 0xDD20 = some (.vcvt 4 0) ∧ decodeStream .seq 0xC67B = some (.shls 1 59) := by decide +kernel

/-! ## Every word -/
/-- R22, R27: words of the integers family. -/
theorem decode_integers :
    decodeThread 0b000001_1_101_1001_0110_0011_0000000000 = some (.add ⟨1, 5⟩ 9 6 3)
    ∧ decodeThread 0b000001_1_101_1001_0110_0011_0000000001 = some (.sub ⟨1, 5⟩ 9 6 3)
    ∧ decodeThread 0b000001_1_101_1001_0110_0011_0000000010 = some (.mul ⟨1, 5⟩ 9 6 3)
    ∧ decodeThread 0b000001_1_101_1001_0110_0011_0000000011 = some (.mulhI64 ⟨1, 5⟩ 9 6 3)
    ∧ decodeThread 0b000001_1_101_1001_0110_0011_0000000100 = some (.mulhN64 ⟨1, 5⟩ 9 6 3)
    ∧ decodeThread 0b000001_1_101_1001_0110_0011_0000000101 = some (.divI64 ⟨1, 5⟩ 9 6 3)
    ∧ decodeThread 0b000001_1_101_1001_0110_0011_0000000110 = some (.divN64 ⟨1, 5⟩ 9 6 3)
    ∧ decodeThread 0b000001_1_101_1001_0110_0011_0000000111 = some (.remI64 ⟨1, 5⟩ 9 6 3)
    ∧ decodeThread 0b000001_1_101_1001_0110_0011_0000001000 = some (.remN64 ⟨1, 5⟩ 9 6 3)
    ∧ decodeThread 0b000001_1_101_1001_0110_0011_0000001001 = some (.addsatI64 ⟨1, 5⟩ 9 6 3)
    ∧ decodeThread 0b000001_1_101_1001_0110_0011_0000001010 = some (.subsatI64 ⟨1, 5⟩ 9 6 3)
    ∧ decodeThread 0b000001_1_101_1001_0110_00000000001011 = some (.abs ⟨1, 5⟩ 9 6)
    ∧ decodeThread 0b000001_1_101_1001_0110_00000000001100 = some (.neg ⟨1, 5⟩ 9 6)
    ∧ decodeThread 0b000010_1_101_1001_0110_0011_0000000000 = some (.and ⟨1, 5⟩ 9 6 3)
    ∧ decodeThread 0b000010_1_101_1001_0110_0011_0000000001 = some (.or ⟨1, 5⟩ 9 6 3)
    ∧ decodeThread 0b000010_1_101_1001_0110_0011_0000000010 = some (.xor ⟨1, 5⟩ 9 6 3)
    ∧ decodeThread 0b000010_1_101_1001_0110_0011_0000000011 = some (.andn ⟨1, 5⟩ 9 6 3)
    ∧ decodeThread 0b000010_1_101_1001_0110_0011_0000000100 = some (.orn ⟨1, 5⟩ 9 6 3)
    ∧ decodeThread 0b000010_1_101_1001_0110_0011_0000000101 = some (.xnor ⟨1, 5⟩ 9 6 3)
    ∧ decodeThread 0b000010_1_101_1001_0110_0011_0000000110 = some (.shl ⟨1, 5⟩ 9 6 3)
    ∧ decodeThread 0b000010_1_101_1001_0110_0011_0000000111 = some (.shr ⟨1, 5⟩ 9 6 3)
    ∧ decodeThread 0b000010_1_101_1001_0110_0011_0000001000 = some (.sar ⟨1, 5⟩ 9 6 3)
    ∧ decodeThread 0b000010_1_101_1001_0110_0011_0000001001 = some (.rol ⟨1, 5⟩ 9 6 3)
    ∧ decodeThread 0b000010_1_101_1001_0110_0011_0000001010 = some (.ror ⟨1, 5⟩ 9 6 3)
    ∧ decodeThread 0b000010_1_101_1001_0110_00000000001011 = some (.clz ⟨1, 5⟩ 9 6)
    ∧ decodeThread 0b000010_1_101_1001_0110_00000000001100 = some (.ctz ⟨1, 5⟩ 9 6)
    ∧ decodeThread 0b000010_1_101_1001_0110_00000000001101 = some (.popc ⟨1, 5⟩ 9 6)
    ∧ decodeThread 0b000010_1_101_1001_0110_00000000001110 = some (.brev ⟨1, 5⟩ 9 6) := by decide +kernel

/-- R22, R27: words of the integers family. -/
theorem decode_integers2 :
    decodeThread 0b000010_1_101_1001_0110_00000000001111 = some (.bswap ⟨1, 5⟩ 9 6)
    ∧ decodeThread 0b000011_1_101_1001_0110_0011_0000000000 = some (.minI64 ⟨1, 5⟩ 9 6 3)
    ∧ decodeThread 0b000011_1_101_1001_0110_0011_0000000001 = some (.maxI64 ⟨1, 5⟩ 9 6 3)
    ∧ decodeThread 0b000011_1_101_1001_0110_0011_0000000010 = some (.minN64 ⟨1, 5⟩ 9 6 3)
    ∧ decodeThread 0b000011_1_101_1001_0110_0011_0000000011 = some (.maxN64 ⟨1, 5⟩ 9 6 3)
    ∧ decodeThread 0b000011_1_101_1001_0110_00000000000100 = some (.sextI8 ⟨1, 5⟩ 9 6)
    ∧ decodeThread 0b000011_1_101_1001_0110_00000000000101 = some (.sextI16 ⟨1, 5⟩ 9 6)
    ∧ decodeThread 0b000011_1_101_1001_0110_00000000000110 = some (.sextI32 ⟨1, 5⟩ 9 6)
    ∧ decodeThread 0b000011_1_101_1001_0110_00000000000111 = some (.zextN8 ⟨1, 5⟩ 9 6)
    ∧ decodeThread 0b000011_1_101_1001_0110_00000000001000 = some (.zextN16 ⟨1, 5⟩ 9 6)
    ∧ decodeThread 0b000011_1_101_1001_0110_00000000001001 = some (.zextN32 ⟨1, 5⟩ 9 6)
    ∧ decodeThread 0b000011_1_101_1001_0110_00000000001010 = some (.mov ⟨1, 5⟩ 9 6)
    ∧ decodeThread 0b000011_1_101_1001_0110_0011_0000010_110 = some (.sel ⟨1, 5⟩ 9 6 3 6)
    ∧ decodeThread 0b000100_1_101_1001_0110_0011_00000000_11 = some (.lea ⟨1, 5⟩ 9 6 3 3)
    ∧ decodeThread 0b001000_1_101_1001_0110_10000000000001 = some (.addi ⟨1, 5⟩ 9 6 0x2001)
    ∧ decodeThread 0b001001_1_101_1001_0110_10000000000001 = some (.andi ⟨1, 5⟩ 9 6 0x2001)
    ∧ decodeThread 0b001010_1_101_1001_0110_10000000000001 = some (.ori ⟨1, 5⟩ 9 6 0x2001)
    ∧ decodeThread 0b001011_1_101_1001_0110_10000000000001 = some (.xori ⟨1, 5⟩ 9 6 0x2001)
    ∧ decodeThread 0b001101_1_101_1001_0000_10000000000001 = some (.movi ⟨1, 5⟩ 9 0x2001)
    ∧ decodeThread 0b001110_1_101_1001_0000_10000000000001 = some (.inshi ⟨1, 5⟩ 9 0x2001)
    ∧ decodeThread 0b001111_1_101_1001_0110_10000000000001 = some (.muli ⟨1, 5⟩ 9 6 0x2001)
    ∧ decodeThread 0b001100_1_101_1001_0110_00000000_000101 = some (.shli ⟨1, 5⟩ 9 6 5)
    ∧ decodeThread 0b001100_1_101_1001_0110_01000000_000101 = some (.shri ⟨1, 5⟩ 9 6 5)
    ∧ decodeThread 0b001100_1_101_1001_0110_10000000_000101 = some (.sari ⟨1, 5⟩ 9 6 5)
    ∧ decodeThread 0b001100_1_101_1001_0110_11000000_000101 = some (.rori ⟨1, 5⟩ 9 6 5) := by decide +kernel

/-- R22, R27: words of the predicates family. -/
theorem decode_predicates :
    decodeThread 0b010000_1_101_0_100_0110_0011_00000_1_1001 = some (.cmp ⟨1, 5⟩ 4 6 3 1 9)
    ∧ decodeThread 0b010001_1_101_0_100_0110_1001_1000000001 = some (.cmpi ⟨1, 5⟩ 4 6 9 0x201)
    ∧ decodeThread 0b010010_1_101_0_100_0_011_0_101_0000000000 = some (.pand ⟨1, 5⟩ 4 3 5)
    ∧ decodeThread 0b010010_1_101_0_100_0_011_0_101_0000000001 = some (.por ⟨1, 5⟩ 4 3 5)
    ∧ decodeThread 0b010010_1_101_0_100_0_011_0_101_0000000010 = some (.pxor ⟨1, 5⟩ 4 3 5)
    ∧ decodeThread 0b010010_1_101_0_100_0_011_0_101_0000000011 = some (.pandn ⟨1, 5⟩ 4 3 5)
    ∧ decodeThread 0b010010_1_101_0_100_0_011_00000000000100 = some (.pnot ⟨1, 5⟩ 4 3)
    ∧ decodeThread 0b010010_1_101_1001_000000000000000101 = some (.rdp ⟨1, 5⟩ 9)
    ∧ decodeThread 0b010010_1_101_0000_0110_00000000000110 = some (.wrp ⟨1, 5⟩ 6)
    ∧ decodeThread 0b010011_1_101_0_100_0110_0011_000000_1_100 = some (.fcmp ⟨1, 5⟩ 4 6 3 1 4) := by decide +kernel

/-- R22, R27: words of the floats family. -/
theorem decode_floats :
    decodeThread 0b010100_1_101_1001_0110_0011_10_00000000 = some (.faddF64 ⟨1, 5⟩ 9 6 3 2)
    ∧ decodeThread 0b010100_1_101_1001_0110_0011_10_00000001 = some (.fsubF64 ⟨1, 5⟩ 9 6 3 2)
    ∧ decodeThread 0b010100_1_101_1001_0110_0011_10_00000010 = some (.fmulF64 ⟨1, 5⟩ 9 6 3 2)
    ∧ decodeThread 0b010100_1_101_1001_0110_0011_10_00000011 = some (.fdivF64 ⟨1, 5⟩ 9 6 3 2)
    ∧ decodeThread 0b010100_1_101_1001_0110_0000_10_00000100 = some (.fsqrtF64 ⟨1, 5⟩ 9 6 2)
    ∧ decodeThread 0b010100_1_101_1001_0110_0011_10_00000101 = some (.fmaF64 ⟨1, 5⟩ 9 6 3 2)
    ∧ decodeThread 0b010100_1_101_1001_0110_0011_0000000110 = some (.fminF64 ⟨1, 5⟩ 9 6 3)
    ∧ decodeThread 0b010100_1_101_1001_0110_0011_0000000111 = some (.fmaxF64 ⟨1, 5⟩ 9 6 3)
    ∧ decodeThread 0b010100_1_101_1001_0110_00000000001000 = some (.fabsF64 ⟨1, 5⟩ 9 6)
    ∧ decodeThread 0b010100_1_101_1001_0110_00000000001001 = some (.fnegF64 ⟨1, 5⟩ 9 6)
    ∧ decodeThread 0b010101_1_101_1001_0110_0011_10_00000000 = some (.faddF32 ⟨1, 5⟩ 9 6 3 2)
    ∧ decodeThread 0b010101_1_101_1001_0110_0011_10_00000001 = some (.fsubF32 ⟨1, 5⟩ 9 6 3 2)
    ∧ decodeThread 0b010101_1_101_1001_0110_0011_10_00000010 = some (.fmulF32 ⟨1, 5⟩ 9 6 3 2)
    ∧ decodeThread 0b010101_1_101_1001_0110_0011_10_00000011 = some (.fdivF32 ⟨1, 5⟩ 9 6 3 2)
    ∧ decodeThread 0b010101_1_101_1001_0110_0000_10_00000100 = some (.fsqrtF32 ⟨1, 5⟩ 9 6 2)
    ∧ decodeThread 0b010101_1_101_1001_0110_0011_10_00000101 = some (.fmaF32 ⟨1, 5⟩ 9 6 3 2)
    ∧ decodeThread 0b010101_1_101_1001_0110_0011_0000000110 = some (.fminF32 ⟨1, 5⟩ 9 6 3)
    ∧ decodeThread 0b010101_1_101_1001_0110_0011_0000000111 = some (.fmaxF32 ⟨1, 5⟩ 9 6 3)
    ∧ decodeThread 0b010101_1_101_1001_0110_00000000001000 = some (.fabsF32 ⟨1, 5⟩ 9 6)
    ∧ decodeThread 0b010101_1_101_1001_0110_00000000001001 = some (.fnegF32 ⟨1, 5⟩ 9 6)
    ∧ decodeThread 0b010110_1_101_1001_0110_0000_01_0100_0110 = some (.cvt ⟨1, 5⟩ 9 6 1 4 6) := by decide +kernel

/-- R22, R27: words of the lanes family. -/
theorem decode_lanes :
    decodeThread 0b011000_1_101_1001_0110_0011_000000_0011 = some (.lnadd ⟨1, 5⟩ 9 6 3 3)
    ∧ decodeThread 0b011000_1_101_1001_0110_0011_000001_0011 = some (.lnsub ⟨1, 5⟩ 9 6 3 3)
    ∧ decodeThread 0b011000_1_101_1001_0110_0011_000010_0011 = some (.lnmul ⟨1, 5⟩ 9 6 3 3)
    ∧ decodeThread 0b011000_1_101_1001_0110_0011_000011_0011 = some (.lnmin ⟨1, 5⟩ 9 6 3 3)
    ∧ decodeThread 0b011000_1_101_1001_0110_0011_000100_0011 = some (.lnmax ⟨1, 5⟩ 9 6 3 3)
    ∧ decodeThread 0b011000_1_101_1001_0110_0011_000101_0011 = some (.lnand ⟨1, 5⟩ 9 6 3 3)
    ∧ decodeThread 0b011000_1_101_1001_0110_0011_000110_0011 = some (.lnor ⟨1, 5⟩ 9 6 3 3)
    ∧ decodeThread 0b011000_1_101_1001_0110_0011_000111_0011 = some (.lnxor ⟨1, 5⟩ 9 6 3 3)
    ∧ decodeThread 0b011000_1_101_1001_0110_0011_001000_0011 = some (.lnfma ⟨1, 5⟩ 9 6 3 3)
    ∧ decodeThread 0b011000_1_101_1001_0110_0000001001_0011 = some (.lncpy ⟨1, 5⟩ 9 6 3)
    ∧ decodeThread 0b011001_1_101_1001_0110_0000000000_0011 = some (.lnsum ⟨1, 5⟩ 9 6 3)
    ∧ decodeThread 0b011001_1_101_1001_0110_0011_000001_1010 = some (.lndot ⟨1, 5⟩ 9 6 3 10) := by decide +kernel

/-- R22, R27: words of the control family. -/
theorem decode_control :
    decodeThread 0b011100_1_101_10_10000000000000000001 = some (.br ⟨1, 5⟩ 2 0x80001)
    ∧ decodeThread 0b011101_1_101_00_10000000000000000001 = some (.call ⟨1, 5⟩ 0x80001)
    ∧ decodeThread 0b011110_1_101_0000000000000000000000 = some (.ret ⟨1, 5⟩)
    ∧ decodeThread 0b011110_1_101_0000_0110_00000000000001 = some (.jmpi ⟨1, 5⟩ 6)
    ∧ decodeThread 0b011110_1_101_0000_0110_00000000000010 = some (.calli ⟨1, 5⟩ 6)
    ∧ decodeThread 0b011110_1_101_0000_0110_00000000010000 = some (.follow ⟨1, 5⟩ 6)
    ∧ decodeThread 0b011110_1_101_0000000000000000010001 = some (.detach ⟨1, 5⟩)
    ∧ decodeThread 0b011110_1_101_0000000000000000010010 = some (.rejoin ⟨1, 5⟩)
    ∧ decodeThread 0b011110_1_101_0000_0110_00000000100_010 = some (.waitcPcc ⟨1, 5⟩ 6 2)
    ∧ decodeThread 0b011110_1_101_0000_0110_00000000101000 = some (.waitcWcc ⟨1, 5⟩ 6)
    ∧ decodeThread 0b011110_1_101_1001_000000000000110_010 = some (.rdcycPcc ⟨1, 5⟩ 9 2)
    ∧ decodeThread 0b011110_1_101_1001_000000000000111000 = some (.rdcycWcc ⟨1, 5⟩ 9)
    ∧ decodeThread 0b011110_1_101_0000000000000001000000 = some (.halt ⟨1, 5⟩)
    ∧ decodeThread 0b011110_1_101_0000_0110_00000001000001 = some (.haltRetain ⟨1, 5⟩ 6)
    ∧ decodeThread 0b011110_1_101_0000000000000001010000 = some (.yield ⟨1, 5⟩) := by decide +kernel

/-- R22, R27: words of the memory family. -/
theorem decode_memory :
    decodeThread 0b100000_1_101_1001_0110_10_1_1_1000000001 = some (.ld ⟨1, 5⟩ 9 6 2 1 1 0x201)
    ∧ decodeThread 0b100001_1_101_1001_0110_10_0_1_1000000001 = some (.st ⟨1, 5⟩ 9 6 2 1 0x201)
    ∧ decodeThread 0b100010_1_101_1001_0110_10_1_0000000_1001 = some (.ldAcq ⟨1, 5⟩ 9 6 2 1 9)
    ∧ decodeThread 0b100011_1_101_1001_0110_10_00000000_1001 = some (.stRel ⟨1, 5⟩ 9 6 2 9)
    ∧ decodeThread 0b100100_1_101_0000000000000000000000 = some (.mark ⟨1, 5⟩)
    ∧ decodeThread 0b100100_1_101_0000_0110_00000000000001 = some (.fence ⟨1, 5⟩ 6)
    ∧ decodeThread 0b100100_1_101_0000000000000000010000 = some (.drainPool ⟨1, 5⟩)
    ∧ decodeThread 0b100100_1_101_0000000000000000010001 = some (.drainCluster ⟨1, 5⟩)
    ∧ decodeThread 0b100100_1_101_0000000000000000010010 = some (.drainHbm ⟨1, 5⟩)
    ∧ decodeThread 0b100100_1_101_0000000000000000010011 = some (.drainTier ⟨1, 5⟩)
    ∧ decodeThread 0b100101_1_101_0000_0110_00000000000000 = some (.cwb ⟨1, 5⟩ 6)
    ∧ decodeThread 0b100101_1_101_0000_0110_00000000000001 = some (.cinv ⟨1, 5⟩ 6)
    ∧ decodeThread 0b100101_1_101_0000_0110_00000000000010 = some (.cflush ⟨1, 5⟩ 6)
    ∧ decodeThread 0b100101_1_101_0000_0110_0011_0000010000 = some (.cwbr ⟨1, 5⟩ 6 3)
    ∧ decodeThread 0b100101_1_101_0000_0110_0011_0000010001 = some (.cinvr ⟨1, 5⟩ 6 3)
    ∧ decodeThread 0b100101_1_101_0000_0110_0011_0000010010 = some (.cflushr ⟨1, 5⟩ 6 3)
    ∧ decodeThread 0b100101_1_101_0000000000000000100000 = some (.l1inv ⟨1, 5⟩) := by decide +kernel

/-- R22, R27: words of the atomics family. -/
theorem decode_atomics :
    decodeThread 0b101000_1_101_1001_0110_0011_00_100_0_11_1_0 = some (.faa ⟨1, 5⟩ 9 6 3 4 3 0)
    ∧ decodeThread 0b101001_1_101_1001_0110_0011_00_100_1_10_1_0 = some (.cas ⟨1, 5⟩ 9 6 3 4 1 2 0)
    ∧ decodeThread 0b101010_1_101_1001_0110_0011_00_100_0_11_1_0 = some (.swp ⟨1, 5⟩ 9 6 3 4 3 0)
    ∧ decodeThread 0b101010_1_101_1001_0110_0011_01_100_0_11_1_0 = some (.atomicAnd ⟨1, 5⟩ 9 6 3 4 3 0)
    ∧ decodeThread 0b101010_1_101_1001_0110_0011_10_100_0_11_1_0 = some (.atomicOr ⟨1, 5⟩ 9 6 3 4 3 0)
    ∧ decodeThread 0b101010_1_101_1001_0110_0011_11_100_0_11_1_0 = some (.atomicXor ⟨1, 5⟩ 9 6 3 4 3 0)
    ∧ decodeThread 0b101011_1_101_1001_0110_0011_00_100_0_11_1_0 = some (.atomicMinI ⟨1, 5⟩ 9 6 3 4 3 0)
    ∧ decodeThread 0b101011_1_101_1001_0110_0011_01_100_0_11_1_0 = some (.atomicMaxI ⟨1, 5⟩ 9 6 3 4 3 0)
    ∧ decodeThread 0b101011_1_101_1001_0110_0011_10_100_0_11_1_0 = some (.atomicMinN ⟨1, 5⟩ 9 6 3 4 3 0)
    ∧ decodeThread 0b101011_1_101_1001_0110_0011_11_100_0_11_1_0 = some (.atomicMaxN ⟨1, 5⟩ 9 6 3 4 3 0)
    ∧ decodeThread 0b101100_1_101_1001_0110_0011_00_001_0_01_1_0 = some (.fadda ⟨1, 5⟩ 9 6 3 1 1 0)
    ∧ decodeThread 0b101101_1_101_0000_0110_0011_00_110_0_01_1_0 = some (.redc ⟨1, 5⟩ 6 3 6 1 0)
    ∧ decodeThread 0b101110_1_101_0000_0110_0011_0110_000000 = some (.spawnu ⟨1, 5⟩ 6 3 6)
    ∧ decodeThread 0b101111_1_101_0000_0110_00000000000000 = some (.mig ⟨1, 5⟩ 6)
    ∧ decodeThread 0b101111_1_101_0000000000000000000001 = some (.home ⟨1, 5⟩) := by decide +kernel

/-- R22, R27: words of the messages family. -/
theorem decode_messages :
    decodeThread 0b110000_1_101_0000_0110_0011_000000_0101 = some (.send ⟨1, 5⟩ 6 3 5)
    ∧ decodeThread 0b110000_1_101_0000_0110_0011_010000_1100 = some (.mcast ⟨1, 5⟩ 6 3 12)
    ∧ decodeThread 0b110000_1_101_0000000000001000000_010 = some (.recv ⟨1, 5⟩ 2)
    ∧ decodeThread 0b110000_1_101_1001_000000001100000_010 = some (.bind ⟨1, 5⟩ 9 2)
    ∧ decodeThread 0b110001_1_101_0000_0110_00000000000000 = some (.spawn ⟨1, 5⟩ 6)
    ∧ decodeThread 0b110001_1_101_0000_0110_00000000000001 = some (.join ⟨1, 5⟩ 6)
    ∧ decodeThread 0b110001_1_101_0000000000000000000010 = some (.taskend ⟨1, 5⟩)
    ∧ decodeThread 0b110100_1_101_0000_0110_00000000000000 = some (.epushCopy ⟨1, 5⟩ 6)
    ∧ decodeThread 0b110100_1_101_0000_0110_00000000000001 = some (.epushGather ⟨1, 5⟩ 6)
    ∧ decodeThread 0b110100_1_101_0000_0110_00000000000010 = some (.epushColl ⟨1, 5⟩ 6)
    ∧ decodeThread 0b110100_1_101_1001_000000000000010000 = some (.epopCopy ⟨1, 5⟩ 9)
    ∧ decodeThread 0b110100_1_101_1001_000000000000010001 = some (.epopGather ⟨1, 5⟩ 9)
    ∧ decodeThread 0b110100_1_101_1001_000000000000010010 = some (.epopColl ⟨1, 5⟩ 9)
    ∧ decodeThread 0b110101_1_101_0000_0110_0011_0000000000 = some (.post ⟨1, 5⟩ 6 3)
    ∧ decodeThread 0b110110_1_101_1001_000000000000000_101 = some (.job ⟨1, 5⟩ 9 5)
    ∧ decodeThread 0b110110_1_101_1011_000000000000001_001 = some (.jobRel ⟨1, 5⟩ 11 1) := by decide +kernel

/-- R22, R27: words of the system family. -/
theorem decode_system :
    decodeThread 0b111000_1_101_1001_0110_0011_0000000000 = some (.salloc ⟨1, 5⟩ 9 6 3)
    ∧ decodeThread 0b111000_1_101_1001_0110_0011_0000000001 = some (.sallocMir ⟨1, 5⟩ 9 6 3)
    ∧ decodeThread 0b111001_1_101_0000_0110_00000000000000 = some (.sfree ⟨1, 5⟩ 6)
    ∧ decodeThread 0b111010_1_101_1001_0110_00000000000000 = some (.sinfoSize ⟨1, 5⟩ 9 6)
    ∧ decodeThread 0b111010_1_101_1001_0110_00000000000001 = some (.sinfoHealth ⟨1, 5⟩ 9 6)
    ∧ decodeThread 0b111010_1_101_1001_0110_00000000000010 = some (.sinfoQuota ⟨1, 5⟩ 9 6)
    ∧ decodeThread 0b111010_1_101_1001_0110_00000000000011 = some (.sinfoInc ⟨1, 5⟩ 9 6)
    ∧ decodeThread 0b111011_1_101_1001_0110_000000000000_10 = some (.dotm ⟨1, 5⟩ 9 6 2)
    ∧ decodeThread 0b111100_1_101_0000000000000000000000 = some (.eret ⟨1, 5⟩)
    ∧ decodeThread 0b111100_1_101_0000_0110_0011_0000000001 = some (.xinv ⟨1, 5⟩ 6 3)
    ∧ decodeThread 0b111100_1_101_0000000000000000000010 = some (.snap ⟨1, 5⟩)
    ∧ decodeThread 0b111100_1_101_0000000000000000000011 = some (.bkpt ⟨1, 5⟩)
    ∧ decodeThread 0b111100_1_101_00000000000001_10100101 = some (.trap ⟨1, 5⟩ 165)
    ∧ decodeThread 0b111101_1_101_1001_00000000_0101010101 = some (.sysr ⟨1, 5⟩ 9 0x155)
    ∧ decodeThread 0b111110_1_101_0000_0110_0000_0101010101 = some (.sysw ⟨1, 5⟩ 6 0x155)
    ∧ decodeThread 0b111110_1_101_0000_0110_00000000000000 = some (.syswWp ⟨1, 5⟩ 6)
    ∧ decodeThread 0b111110_1_101_0000_0110_00000000000100 = some (.syswSpace ⟨1, 5⟩ 6)
    ∧ decodeThread 0b111110_1_101_0000_0110_00000000001000 = some (.syswBndW ⟨1, 5⟩ 6)
    ∧ decodeThread 0b111110_1_101_0000_0110_00000000001001 = some (.syswBndS ⟨1, 5⟩ 6)
    ∧ decodeThread 0b111110_1_101_0000_0110_00000000001010 = some (.syswBndL ⟨1, 5⟩ 6)
    ∧ decodeThread 0b111110_1_101_0000_0110_000000000100_11 = some (.syswWin ⟨1, 5⟩ 6 3)
    ∧ decodeThread 0b111110_1_101_0000_0110_00000000100_101 = some (.syswHmask ⟨1, 5⟩ 6 5)
    ∧ decodeThread 0b111110_1_101_0000_0110_00000000110000 = some (.syswSlotmap ⟨1, 5⟩ 6)
    ∧ decodeThread 0b111110_1_101_0000_0110_000000010_1011_0 = some (.syswDomtabB ⟨1, 5⟩ 6 11)
    ∧ decodeThread 0b111110_1_101_0000_0110_000000010_0110_1 = some (.syswDomtabL ⟨1, 5⟩ 6 6) := by decide +kernel

/-- R26: prefix pairs: immhi is 0x20003 and imm14 is 5. -/
theorem decode_pairs :
    decodeCode (leBytes 4 0b111111_00000000_100000000000000011 ++ leBytes 4 0b001000_1_101_1001_0110_00000000000101) = .ok (.addiLong ⟨1, 5⟩ 9 6 0x8000C005, 8)
    ∧ decodeCode (leBytes 4 0b111111_00000000_100000000000000011 ++ leBytes 4 0b001001_1_101_1001_0110_00000000000101) = .ok (.andiLong ⟨1, 5⟩ 9 6 0x8000C005, 8)
    ∧ decodeCode (leBytes 4 0b111111_00000000_100000000000000011 ++ leBytes 4 0b001010_1_101_1001_0110_00000000000101) = .ok (.oriLong ⟨1, 5⟩ 9 6 0x8000C005, 8)
    ∧ decodeCode (leBytes 4 0b111111_00000000_100000000000000011 ++ leBytes 4 0b001011_1_101_1001_0110_00000000000101) = .ok (.xoriLong ⟨1, 5⟩ 9 6 0x8000C005, 8)
    ∧ decodeCode (leBytes 4 0b111111_00000000_100000000000000011 ++ leBytes 4 0b001101_1_101_1001_0000_00000000000101) = .ok (.moviLong ⟨1, 5⟩ 9 0x8000C005, 8)
    ∧ decodeCode (leBytes 4 0b111111_00000000_100000000000000011 ++ leBytes 4 0b001110_1_101_1001_0000_00000000000101) = .ok (.inshiLong ⟨1, 5⟩ 9 0x8000C005, 8)
    ∧ decodeCode (leBytes 4 0b111111_00000000_100000000000000011 ++ leBytes 4 0b001111_1_101_1001_0110_00000000000101) = .ok (.muliLong ⟨1, 5⟩ 9 6 0x8000C005, 8) := by decide +kernel

/-- R29: words of every engine or of the sequencer. -/
theorem decode_commonWords :
    decodeStream .seq 0b0_100010101100111 = some (.lit 0x4567)
    ∧ decodeStream .seq 0b10_10001101000101 = some (.ext 0x2345)
    ∧ decodeStream .seq 0b1100000000000000 = some (.dup)
    ∧ decodeStream .seq 0b1100000100000000 = some (.drop)
    ∧ decodeStream .seq 0b1100001000000000 = some (.swap)
    ∧ decodeStream .seq 0b1100001100000000 = some (.over)
    ∧ decodeStream .seq 0b1100010000000000 = some (.adds)
    ∧ decodeStream .seq 0b1100010100000000 = some (.subs)
    ∧ decodeStream .seq 0b11000110_10_101011 = some (.shls 2 43)
    ∧ decodeStream .seq 0b1100011100000000 = some (.atW)
    ∧ decodeStream .seq 0b1100100000000000 = some (.dt)
    ∧ decodeStream .seq 0b1100100100000000 = some (.rdv)
    ∧ decodeStream .seq 0b1100101000000000 = some (.loopW)
    ∧ decodeStream .seq 0b1100101000000001 = some (.loopReg)
    ∧ decodeStream .seq 0b1100101100000000 = some (.endl)
    ∧ decodeStream .seq 0b1100110000000000 = some (.ppt)
    ∧ decodeStream .seq 0b1100110100000000 = some (.haltj)
    ∧ decodeStream .seq 0b11001110_00000011 = some (.setf 3)
    ∧ decodeStream .seq 0b1100111100000000 = some (.nopw) := by decide +kernel

/-- R29: words of the sequencer. -/
theorem decode_sequencerWords :
    decodeStream .seq 0b1101000000000000 = some (.fmt)
    ∧ decodeStream .seq 0b1101000100000000 = some (.ctab)
    ∧ decodeStream .seq 0b1101001000000000 = some (.tsclW)
    ∧ decodeStream .seq 0b1101001000000001 = some (.tsclA)
    ∧ decodeStream .seq 0b1101001100000000 = some (.oasis)
    ∧ decodeStream .seq 0b1101010000000_100 = some (.take 4)
    ∧ decodeStream .seq 0b1101010100000000 = some (.segt)
    ∧ decodeStream .seq 0b110101100000_0101 = some (.await 5)
    ∧ decodeStream .seq 0b1101011100000000 = some (.manc)
    ∧ decodeStream .seq 0b1101011100000001 = some (.mancOff)
    ∧ decodeStream .seq 0b1101100000000000 = some (.selk)
    ∧ decodeStream .seq 0b1101100100000000 = some (.shape)
    ∧ decodeStream .seq 0b1101101000000000 = some (.rdpcc) := by decide +kernel

/-- R30: words of the load engine. -/
theorem decode_loadsWords :
    decodeStream .lde 0b110100000000_0101 = some (.ldw 5)
    ∧ decodeStream .lde 0b110100010000_0101 = some (.lda 5)
    ∧ decodeStream .lde 0b110100100000_0101 = some (.lds 5)
    ∧ decodeStream .lde 0b110100110000000_1 = some (.pfw 1)
    ∧ decodeStream .lde 0b110101000000000_1 = some (.pfa 1)
    ∧ decodeStream .lde 0b110101010000_0101 = some (.tfw 5)
    ∧ decodeStream .lde 0b110101100000_0101 = some (.tfa 5)
    ∧ decodeStream .lde 0b110101110000_0101 = some (.gta 5) := by decide +kernel

/-- R30: words of the matrix engine. -/
theorem decode_matrixWords :
    decodeStream .mxe 0b11010000_10100_1_0_1 = some (.mma 20 1 0 1)
    ∧ decodeStream .mxe 0b11010001_00101_0_1_0 = some (.mmaz 5 0 1 0)
    ∧ decodeStream .mxe 0b11010010_10010_000 = some (.dwa 18)
    ∧ decodeStream .mxe 0b11010011_01001_000 = some (.dwaz 9) := by decide +kernel

/-- R30: words of the vector engine. -/
theorem decode_vectorWords :
    decodeStream .vxe 0b11010000_00010_000 = some (.vadd 2)
    ∧ decodeStream .vxe 0b11010001_00001_000 = some (.vsub 1)
    ∧ decodeStream .vxe 0b11010010_00001_000 = some (.vmul 1)
    ∧ decodeStream .vxe 0b11010011_00001_000 = some (.vfma 1)
    ∧ decodeStream .vxe 0b11010100_00001_000 = some (.vmax 1)
    ∧ decodeStream .vxe 0b11010101_00001_000 = some (.vmin 1)
    ∧ decodeStream .vxe 0b11010110_00001_000 = some (.vabs 1)
    ∧ decodeStream .vxe 0b11010111_00001_000 = some (.vexp 1)
    ∧ decodeStream .vxe 0b11011000_00001_000 = some (.vrcp 1)
    ∧ decodeStream .vxe 0b11011001_00001_000 = some (.vrsq 1)
    ∧ decodeStream .vxe 0b11011010_01101_000 = some (.vsel 13)
    ∧ decodeStream .vxe 0b11011011_00010_110 = some (.vcmp 2 6)
    ∧ decodeStream .vxe 0b11011100_00010_011 = some (.vred 2 3)
    ∧ decodeStream .vxe 0b11011101_01101_010 = some (.vcvt 13 2)
    ∧ decodeStream .vxe 0b11011110_01110_00_0 = some (.vres 14 0)
    ∧ decodeStream .vxe 0b11011111_00001_101 = some (.vcmpu 1 5)
    ∧ decodeStream .vxe 0b11100000_01111_00_0 = some (.vrq 15 0)
    ∧ decodeStream .vxe 0b11100001_01111_000 = some (.vmov 15) := by decide +kernel

/-- R30: words of the copy engine. -/
theorem decode_copiesWords :
    decodeStream .cpe 0b1101000000000000 = some (.cpaa)
    ∧ decodeStream .cpe 0b1101000100000000 = some (.cpah)
    ∧ decodeStream .cpe 0b11010010_00011_00_0 = some (.cprs 3 0)
    ∧ decodeStream .cpe 0b11010011_00000_00_1 = some (.cprh 0 1)
    ∧ decodeStream .cpe 0b11010100_00001_000 = some (.topr 1)
    ∧ decodeStream .cpe 0b11010101_00001_000 = some (.topc 1)
    ∧ decodeStream .cpe 0b1101011000000000 = some (.spill)
    ∧ decodeStream .cpe 0b110101110000_1001 = some (.fillc 9) := by decide +kernel

/-! ## Results that the spec works out -/

/-- Reads a register after an instruction. -/
def resultOf (i : Instr) (s : State) (d : Reg) : Option Word :=
  match exec i s with
  | .next t => some (t.regOf me d.toNat)
  | _ => none

/-- R41: −7 by 2. -/
theorem test_division :
    resultOf (.divI64 always 1 2 3) (thread [(2, -7), (3, 2)]) 1 = some (-3)
    ∧ resultOf (.remI64 always 1 2 3) (thread [(2, -7), (3, 2)]) 1 = some (-1) := by decide +kernel

/-- R53: −2.75 to an integer, toward zero and to nearest. -/
theorem test_convert :
    resultOf (.cvt always 2 3 1 5 0) (thread [(3, 0xC006000000000000)]) 2 = some 0xFFFFFFFFFFFFFFFE
    ∧ resultOf (.cvt always 2 3 0 5 0) (thread [(3, 0xC006000000000000)]) 2 = some (-3) := by decide +kernel

/-- R7, R111: SYS.CORE of core (21, 10) of device 3; its number in its cluster. -/
theorem test_coreNumbers :
    (CoreRef.thread 3 21 10).sysCore = 0x0300015A ∧ clusterCore 0 21 10 37 = .thread 0 21 10 := by decide

/-- R32: the rectangle from core (16, 8) to core (31, 15). -/
theorem test_scope :
    scopeLegal 0x20000000001043EF = true ∧ rectOf (wbits 0x20000000001043EF 0 22) = (16, 8, 31, 15)
    ∧ scopeLegal 0x4000000000000000 = true := by decide

/-- R9, R73, R281: a peer's scratchpad, a byte of A of pipe 130, a tier pointer, and one beyond its switch. -/
theorem test_addresses :
    ((thread []).modCore (.thread 0 21 10) fun _ => plainCore).classifyAt (.thread 0 20 10) (.thread 0 20 10) 0 0x00FF000002500A00
        = .pool (.thread 0 21 10) 0xA00
    ∧ (thread []).classify me 0x00FD008240000080 = .window ⟨0, 130⟩ (some .a) 0x80
    ∧ (thread []).classify me 0x00E4020000200000 = .tier 8 1 0x200000
    ∧ (thread []).classify me 0x00E4024000000000 = .bad 3 := by decide +kernel

/-- R107: address 0x1400, and a row 16 KiB further, home at slice 40 of the default domain. -/
theorem test_homeSlice : Device.reset.home 0x1400 = 40 ∧ Device.reset.home (0x1400 + 16384) = 40 := by decide +kernel

/-- R227: three REDC.f32 updates of a zeroed pair with 1.0, 2^−24, 2^−24. -/
theorem test_redc :
    redcStep f32 0 0 0x3F800000 = (0x3F800000, 0) ∧ redcStep f32 0x3F800000 0 0x33800000 = (0x3F800000, 0x33800000)
    ∧ redcStep f32 0x3F800000 0x33800000 0x33800000 = (0x3F800000, 0x34000000) := by decide +kernel

/-- R210: 1.0, 2.0, −1.0 and 0 in E2M3. -/
theorem test_packing :
    (List.range 4).map (packedElement 8 [0x08, 0x84, 0x02]) = [0x08, 0x10, 0x28, 0x00] ∧ elementValue 4 0x7E = .fin false 14 5 := by
  decide

/-- R214: the codes of a table, and a block of 2.0, 0.75 and thirty times 1.0. -/
theorem test_entropyCoding :
    (canonical 0x312400004).map (fun x => (x.1, x.2.1, x.2.2)) = [(7, 1, 0), (6, 2, 2), (8, 3, 6), (0, 4, 14), (5, 4, 15)]
    ∧ ecBlock 10 0x312400004 ([0x06, 0x40] ++ List.replicate 14 0 ++ [0x00, 0x0B] ++ List.replicate 6 0)
        = some ([0x40, 0x34] ++ List.replicate 30 0x38, 24) := by decide +kernel

/-- R167: VADD.bf16 over 4,096 elements with b scalar takes steps of 3 cycles. -/
theorem test_vectorStep :
    (vecForm (.vadd 3) [4096, toWord (2 ^ 59 + 0x1000), 0x4000, 0x8000]).stepTime = 3 := by decide

/-- R172: 1,000.0 becomes 448.0 in E4M3. -/
theorem test_vectorConvert : vecConvert 4 0 0x447A0000 = 0x7E := by decide +kernel

/-- R326, R331: a cause word, a fault word. -/
theorem test_faultWords :
    causeWord false 24 26 = 0x18001A ∧ ({ code := 7, detail := 0, pipe := 0, stream := 3, pcc := 0x61EC2 } : StreamFault).word
      = 0x8700600000061EC2 := by decide

/-- R233: the contexts of a core by BND.W. -/
theorem test_contexts :
    ({ plainCore with bndW := 4 } : Core).contexts = 12 ∧ ({ plainCore with bndW := 5 } : Core).contexts = 16
    ∧ ({ plainCore with bndW := 2 } : Core).contexts = 6 := by decide

/-- CRC-32C (R6): the published check value, of the digits 1 to 9. -/
theorem test_crc : crc32c [0x31, 0x32, 0x33, 0x34, 0x35, 0x36, 0x37, 0x38, 0x39] = 0xE3069283 := by decide +kernel

end Sys2Proof.Tests
end

section
/-! PROOFS. The integer instructions of R41 and R42: the values of the divisions, the bits and bytes of numbers that the counts
and reversals are made of, and what an instruction of two or of one source writes. -/

namespace Sys2Proof.Machine

/-! ## Numbers as words -/

theorem toNat_toWord {n : Nat} (h : n < 2 ^ 64) : (toWord n).toNat = n := Nat.mod_eq_of_lt h

theorem getLsbD_toWord (n : Nat) {i : Nat} (h : i < 64) : (toWord n).getLsbD i = n.testBit i := by
  rw [toWord, BitVec.getLsbD_ofNat, decide_eq_true h, Bool.true_and]

theorem bit_eq_testBit (v k : Nat) : bit v k = v.testBit k := by
  rw [bit, Nat.testBit_eq_decide_div_mod_eq]
  rfl

/-! ## Counting and reversing bits -/

theorem leadingZeros_le (n v : Nat) : leadingZeros n v ≤ n := by
  induction n with
  | zero => exact Nat.le_refl 0
  | succ n ih => rw [leadingZeros]; split <;> omega

/-- The bits that `leadingZeros` counts, from the highest of the low n down, are clear. -/
theorem testBit_of_lt_leadingZeros (n v : Nat) {i : Nat} (h : i < leadingZeros n v) : v.testBit (n - 1 - i) = false := by
  induction n generalizing i with
  | zero => exact absurd h (Nat.not_lt_zero i)
  | succ n ih =>
    rw [leadingZeros, bit_eq_testBit] at h
    split at h
    next => omega
    next hclear =>
      cases i with
      | zero => simpa using hclear
      | succ i =>
        have := ih (i := i) (by omega)
        rwa [show n + 1 - 1 - (i + 1) = n - 1 - i by omega]

/-- The first bit that `leadingZeros` does not count is set. -/
theorem testBit_leadingZeros (n v : Nat) (h : leadingZeros n v < n) : v.testBit (n - 1 - leadingZeros n v) = true := by
  induction n with
  | zero => exact absurd h (Nat.not_lt_zero _)
  | succ n ih =>
    rw [leadingZeros, bit_eq_testBit] at h ⊢
    split at h
    next hset => simp [hset]
    next hclear =>
      have := ih (by omega)
      rwa [if_neg hclear, show n + 1 - 1 - (1 + leadingZeros n v) = n - 1 - leadingZeros n v by omega]

theorem trailingZeros_le (n k v : Nat) : trailingZeros n k v ≤ n := by
  induction n generalizing k with
  | zero => exact Nat.le_refl 0
  | succ n ih => have := ih (k + 1); rw [trailingZeros]; split <;> omega

/-- The bits that `trailingZeros` counts, from bit k up, are clear. -/
theorem testBit_of_lt_trailingZeros (n k v : Nat) {i : Nat} (h : i < trailingZeros n k v) : v.testBit (k + i) = false := by
  induction n generalizing k i with
  | zero => exact absurd h (Nat.not_lt_zero i)
  | succ n ih =>
    rw [trailingZeros, bit_eq_testBit] at h
    split at h
    next => omega
    next hclear =>
      cases i with
      | zero => simpa using hclear
      | succ i =>
        have := ih (k + 1) (i := i) (by omega)
        rwa [show k + (i + 1) = k + 1 + i by omega]

/-- The first bit that `trailingZeros` does not count is set. -/
theorem testBit_trailingZeros (n k v : Nat) (h : trailingZeros n k v < n) : v.testBit (k + trailingZeros n k v) = true := by
  induction n generalizing k with
  | zero => exact absurd h (Nat.not_lt_zero _)
  | succ n ih =>
    rw [trailingZeros, bit_eq_testBit] at h ⊢
    split at h
    next hset => simp [hset]
    next hclear =>
      have := ih (k + 1) (by omega)
      rwa [if_neg hclear, ← Nat.add_assoc]

theorem popCount_eq_length_filter (n v : Nat) : popCount n v = ((List.range n).filter v.testBit).length := by
  induction n with
  | zero => rfl
  | succ n ih =>
    rw [popCount, ih, bit_eq_testBit, List.range_succ, List.filter_append, List.length_append]
    cases h : v.testBit n <;> simp [h]

theorem popCount_le (n v : Nat) : popCount n v ≤ n := by
  rw [popCount_eq_length_filter]
  exact (List.length_filter_le _ _).trans_eq List.length_range

/-- Reversing the low n bits fills the top n of the 64, so that the next bit joins them without a carry. -/
theorem two_pow_dvd_reverseBits (n v : Nat) (hn : n ≤ 64) : 2 ^ (64 - n) ∣ reverseBits n v := by
  induction n with
  | zero => exact Nat.dvd_zero _
  | succ n ih =>
    rw [reverseBits]
    refine Nat.dvd_add ((Nat.pow_dvd_pow 2 (by omega)).trans (ih (by omega))) ?_
    split
    · rw [show 64 - (n + 1) = 63 - n by omega]
    · exact Nat.dvd_zero _

/-- Bit i of the reversed low n bits is bit 63 − i, where that is one of the n. -/
theorem testBit_reverseBits (n v i : Nat) (hn : n ≤ 64) (hi : i < 64) :
    (reverseBits n v).testBit i = (decide (63 - i < n) && v.testBit (63 - i)) := by
  induction n with
  | zero => simp [reverseBits]
  | succ n ih =>
    obtain ⟨q, hq⟩ := two_pow_dvd_reverseBits n v (by omega)
    have hlt : (if bit v n then 2 ^ (63 - n) else 0) < 2 ^ (64 - n) := by
      split
      · exact Nat.pow_lt_pow_right (by decide) (by omega)
      · exact Nat.two_pow_pos _
    have hnew : (if bit v n then 2 ^ (63 - n) else 0).testBit i = (decide (63 - i = n) && v.testBit (63 - i)) := by
      rw [bit_eq_testBit]
      by_cases h : 63 - i = n
      · subst h
        have hback : 63 - (63 - i) = i := by omega
        cases v.testBit (63 - i) <;> simp [hback]
      · have hother : 63 - n ≠ i := by omega
        cases v.testBit n <;> simp [h, hother]
    rw [reverseBits, hq, Nat.two_pow_add_eq_or_of_lt hlt, ← hq, Nat.testBit_or, ih (by omega), hnew,
      ← Bool.and_or_distrib_right, ← Bool.decide_or]
    simp only [Nat.lt_succ_iff_lt_or_eq]

/-! ## Reversing bytes -/

theorem getElem_leBytes (n v : Nat) {i : Nat} (h : i < (leBytes n v).length) :
    (leBytes n v)[i] = BitVec.ofNat 8 (v / 256 ^ i) := by
  induction n generalizing v i with
  | zero => exact absurd h (Nat.not_lt_zero i)
  | succ n ih =>
    cases i with
    | zero => simp [leBytes]
    | succ i => simp [leBytes, ih, Nat.div_div_eq_div_mul, Nat.pow_succ']

theorem leNat_lt (l : List Byte) : leNat l < 256 ^ l.length := by
  induction l with
  | nil => exact Nat.one_pos
  | cons b l ih =>
    have := b.isLt
    rw [leNat, List.length_cons, Nat.pow_succ]
    omega

/-- Byte i of the number that little-endian bytes hold. -/
theorem ofNat_leNat_div (l : List Byte) {i : Nat} (h : i < l.length) : BitVec.ofNat 8 (leNat l / 256 ^ i) = l[i] := by
  induction l generalizing i with
  | nil => exact absurd h (Nat.not_lt_zero i)
  | cons b l ih =>
    have hb := b.isLt
    cases i with
    | zero => exact BitVec.eq_of_toNat_eq (by simp [leNat]; omega)
    | succ i =>
      have htail : leNat (b :: l) / 256 = leNat l := by rw [leNat]; omega
      rw [Nat.pow_succ', ← Nat.div_div_eq_div_mul, htail]
      exact ih (Nat.lt_of_succ_lt_succ h)

theorem extractLsb'_byte (x : Word) (i : Nat) : x.extractLsb' (8 * i) 8 = BitVec.ofNat 8 (x.toNat / 256 ^ i) := by
  rw [BitVec.extractLsb', Nat.shiftRight_eq_div_pow, Nat.pow_mul]

theorem extractLsb'_swapBytes (x : Word) {i : Nat} (h : i < 8) :
    (swapBytes x).extractLsb' (8 * i) 8 = x.extractLsb' (8 * (7 - i)) 8 := by
  have hlen : (leBytes 8 x.toNat).reverse.length = 8 := by simp
  have hlt : leNat (leBytes 8 x.toNat).reverse < 2 ^ 64 := by
    have := leNat_lt (leBytes 8 x.toNat).reverse
    rwa [hlen] at this
  rw [extractLsb'_byte, extractLsb'_byte, swapBytes, toNat_toWord hlt, ofNat_leNat_div _ (hlen.symm ▸ h),
    List.getElem_reverse, getElem_leBytes, leBytes_length, show 8 - 1 - i = 7 - i by omega]

/-! ## Rotations -/

theorem rolBy_amount (x y : Word) : rolBy x (amount y) = x <<< (y.toNat % 64) ||| x >>> (64 - y.toNat % 64) := by
  rw [rolBy, amount, BitVec.rotateLeft_def, Nat.mod_mod]

theorem rorBy_amount (x y : Word) : rorBy x (amount y) = x >>> (y.toNat % 64) ||| x <<< (64 - y.toNat % 64) := by
  rw [rorBy, amount, BitVec.rotateRight_def, Nat.mod_mod]

/-! ## The values of the divisions (R41) -/

/-- The signed quotient by a divisor other than 0 is that of bit vectors, the one of −2^63 by −1 among them. -/
theorem divSigned_eq_sdiv {x y : Word} (hy : y ≠ 0) : divSigned x y = x.sdiv y := by
  rw [divSigned, if_neg hy, ofInt]
  by_cases hov : x = BitVec.intMin 64 ∧ y = -1#64
  · obtain ⟨rfl, rfl⟩ := hov
    decide
  · rw [← BitVec.toInt_sdiv_of_ne_or_ne x y (by tauto), BitVec.ofInt_toInt]

theorem remSigned_eq_srem {x y : Word} (hy : y ≠ 0) : remSigned x y = x.srem y := by
  rw [remSigned, if_neg hy, ofInt, ← BitVec.toInt_srem, BitVec.ofInt_toInt]

theorem toNat_divUnsigned {x y : Word} (hy : y ≠ 0) : (divUnsigned x y).toNat = x.toNat / y.toNat := by
  rw [divUnsigned, if_neg hy, toNat_toWord (Nat.lt_of_le_of_lt (Nat.div_le_self _ _) x.isLt)]

theorem toNat_remUnsigned {x y : Word} (hy : y ≠ 0) : (remUnsigned x y).toNat = x.toNat % y.toNat := by
  rw [remUnsigned, if_neg hy, toNat_toWord (Nat.lt_of_le_of_lt (Nat.mod_le _ _) x.isLt)]

/-! ## What the instructions do where their guard holds -/

section

variable {i : Instr} {g : Guard} {d a b : Reg} {s : State}

theorem writesReg_of_binary {f : Word → Word → Word} (h : s.Enabled g) (hi : exec i s = binary f g d a b s) :
    WritesReg i s 4 d (f (s.reg a) (s.reg b)) := by
  obtain ⟨hpool, -, hguard⟩ := h
  rw [WritesReg, hi, binary, guarded_true _ _ _ _ hguard]
  exact result_spec 4 s d _ hpool

theorem writesReg_of_unary {f : Word → Word} (h : s.Enabled g) (hi : exec i s = unary f g d a s) :
    WritesReg i s 4 d (f (s.reg a)) := by
  obtain ⟨hpool, -, hguard⟩ := h
  rw [WritesReg, hi, unary, guarded_true _ _ _ _ hguard]
  exact result_spec 4 s d _ hpool

theorem exec_of_division {f : Word → Word → Word} (h : s.Enabled g) (hi : exec i s = division f g d a b s) :
    exec i s = .next (((s.setReg d (f (s.reg a) (s.reg b))).retire 4).useDivider 64 15 false) := by
  obtain ⟨-, -, hguard⟩ := h
  rw [hi, division, guarded_true _ _ _ _ hguard]

end

/-! ## The statements -/

/-- Settles O2: the divider's results are the quotients and remainders of bit vectors, beside the fixed results for a zero
divisor. -/
theorem divisionResults : Obligations.DivisionResults := by
  unfold Obligations.DivisionResults
  intro s g d a b h x y done
  refine ⟨divSigned x y, remSigned x y, divUnsigned x y, remUnsigned x y,
    exec_of_division h (exec_divI64 g d a b s), exec_of_division h (exec_remI64 g d a b s),
    exec_of_division h (exec_divN64 g d a b s), exec_of_division h (exec_remN64 g d a b s),
    ?zero, ?overflow, ?signed, ?unsigned⟩
  case zero => exact fun hy => ⟨if_pos hy, if_pos hy, if_pos hy, if_pos hy⟩
  case overflow =>
    rintro ⟨hx, hy⟩
    rw [hx, hy]
    decide
  case signed =>
    rintro ⟨hy, hov⟩
    rw [divSigned_eq_sdiv hy, remSigned_eq_srem hy]
    exact ⟨BitVec.toInt_sdiv_of_ne_or_ne x y (not_and_or.mp hov), BitVec.toInt_srem x y⟩
  case unsigned => exact fun hy => ⟨toNat_divUnsigned hy, toNat_remUnsigned hy⟩

/-- The first half of O3: each meaning is `binary` of the function that R42 names. -/
theorem logicAndShiftResults : Claim.LogicAndShiftResults := by
  intro s g d a b h n
  refine ⟨writesReg_of_binary h (exec_and g d a b s), writesReg_of_binary h (exec_or g d a b s),
    writesReg_of_binary h (exec_xor g d a b s), writesReg_of_binary h (exec_andn g d a b s),
    writesReg_of_binary h (exec_orn g d a b s), writesReg_of_binary h (exec_xnor g d a b s),
    writesReg_of_binary h (exec_shl g d a b s), writesReg_of_binary h (exec_shr g d a b s),
    writesReg_of_binary h (exec_sar g d a b s), ?rol, ?ror⟩
  case rol =>
    rw [← rolBy_amount]
    exact writesReg_of_binary h (exec_rol g d a b s)
  case ror =>
    rw [← rorBy_amount]
    exact writesReg_of_binary h (exec_ror g d a b s)

/-- The second half of O3: each meaning is `unary` of a function whose bits or bytes are known. -/
theorem bitCountResults : Claim.BitCountResults := by
  intro s g d a h x
  refine ⟨⟨toWord (leadingZeros 64 x.toNat), writesReg_of_unary h (exec_clz g d a s), ?clz⟩,
    ⟨toWord (trailingZeros 64 0 x.toNat), writesReg_of_unary h (exec_ctz g d a s), ?ctz⟩,
    ⟨toWord (popCount 64 x.toNat), writesReg_of_unary h (exec_popc g d a s), ?popc⟩,
    ⟨toWord (reverseBits 64 x.toNat), writesReg_of_unary h (exec_brev g d a s), ?brev⟩,
    ⟨swapBytes x, writesReg_of_unary h (exec_bswap g d a s), fun i hi => extractLsb'_swapBytes x hi⟩⟩
  case clz =>
    have hle := leadingZeros_le 64 x.toNat
    rw [toNat_toWord (by omega)]
    exact ⟨hle, fun i hi => testBit_of_lt_leadingZeros 64 x.toNat hi, testBit_leadingZeros 64 x.toNat⟩
  case ctz =>
    have hle := trailingZeros_le 64 0 x.toNat
    have hbits := fun i (hi : i < trailingZeros 64 0 x.toNat) => testBit_of_lt_trailingZeros 64 0 x.toNat hi
    have hset := testBit_trailingZeros 64 0 x.toNat
    rw [toNat_toWord (by omega)]
    simp only [Nat.zero_add] at hbits hset
    exact ⟨hle, hbits, hset⟩
  case popc =>
    have hle := popCount_le 64 x.toNat
    rw [toNat_toWord (by omega), popCount_eq_length_filter]
    rfl
  case brev =>
    intro i hi
    rw [getLsbD_toWord _ hi, testBit_reverseBits 64 x.toNat i (Nat.le_refl 64) hi, decide_eq_true (by omega), Bool.true_and]
    rfl

/-- Settles O3: logic and shifts by their values, bit counts and reversals by what they count. -/
theorem logicShiftAndBitResults : Obligations.LogicShiftAndBitResults := by
  unfold Obligations.LogicShiftAndBitResults
  exact ⟨logicAndShiftResults, bitCountResults⟩

end Sys2Proof.Machine
end
